-- ==== Sys2Proof/Word.lean ====
section
/-! DEFINITION. The word types of PCE and the shape of its buffers (00_scope.md R7, 10_state.md R23, R24). -/

namespace Sys2Proof

/-- A data word: 5 bits, so a value above 31 cannot be written down (R24). -/
abbrev DataWord := BitVec 5

/-- A character (code unit): 8 bits (R10). -/
abbrev Code := BitVec 8

/-- An accumulator value: 32 bits unsigned, of which 30 are significant (R7, R18). -/
abbrev Accum := BitVec 32

/-- A command word: 16 bits (R50). -/
abbrev CommandWord := BitVec 16

/-- A buffer: exactly 256 elements of one width, every index 0..255 legal (R23). Equal contents are equal data. -/
abbrev Buf (w : Nat) := Vector (BitVec w) 256

/-- The buffer whose element `i` is `f i`. -/
def Buf.tabulate {w : Nat} (f : Nat → BitVec w) : Buf w :=
  ⟨((List.range 256).map f).toArray, by simp⟩

end Sys2Proof
end

