-- ==== Sys2Proof/Syntax.lean ====
section
/-! DEFINITION. The ten commands of PCE, one constructor per row of the opcode table (30_encoding.md R51). The only
operands in a command word are the 5-bit data word of PMSTEP and ENCCH and the 8-bit character of DECCH (R52). -/

namespace Sys2Proof

/-- A command (R51). -/
inductive Instr where
  /-- PMINIT: start a new polymod computation (R76). -/
  | pminit
  /-- PMSTEP `v`: absorb one data word (R77). -/
  | pmstep (v : DataWord)
  /-- PMRUN: polymod of the word buffer (R78). -/
  | pmrun
  /-- ENCCH `v`: the character of a data word (R69). -/
  | encch (v : DataWord)
  /-- DECCH `c`: the value of a character (R70). -/
  | decch (c : Code)
  /-- HRPX: write the expanded HRP into the word buffer (R81). -/
  | hrpx
  /-- CKCREATE: compute the checksum of (HB, WB) (R85). -/
  | ckcreate
  /-- CKVERIFY: check the checksum of (HB, WB) (R86). -/
  | ckverify
  /-- ENCODE: build the combined string of (HB, WB) in SB (R91). -/
  | encode
  /-- DECODE: decode the string in SB into (HB, WB) (R103). -/
  | decode
  deriving DecidableEq, Repr

end Sys2Proof
end

