-- ==== Sys2Proof/WellFormed.lean ====
section
/-! DEFINITION. Well-formedness. A command as syntax is well formed by its types: a data word has 5 bits and a
character 8 (30_encoding.md R52, 93_implementation_defined.md U1). What can be ill formed is the 16-bit word the host
writes to CMD; these are R53's three checks of it, (a), (b) and (c), written apart from the decoder. -/

namespace Sys2Proof

/-- R53 (a): the operation code is one of 0x01..0x0A. -/
def WellFormed.opAssigned (w : CommandWord) : Bool :=
  let op := w.toNat / 256
  decide (1 ≤ op) && decide (op ≤ 10)

/-- R53 (b): a command without an operand has `arg = 0`. -/
def WellFormed.argAbsent (w : CommandWord) : Bool :=
  let op := w.toNat / 256
  let arg := w.toNat % 256
  !([0x01, 0x03, 0x06, 0x07, 0x08, 0x09, 0x0A].contains op) || decide (arg = 0)

/-- R53 (c): a command with a data word operand has `arg[7:5] = 0`. -/
def WellFormed.argIsWord (w : CommandWord) : Bool :=
  let op := w.toNat / 256
  let arg := w.toNat % 256
  !([0x02, 0x04].contains op) || decide (arg < 32)

/-- The command word is legal (R53). -/
def WellFormed.word (w : CommandWord) : Bool :=
  WellFormed.opAssigned w && WellFormed.argAbsent w && WellFormed.argIsWord w

end Sys2Proof
end

