-- ==== Sys2Proof/Decode.lean ====
section
/-! DEFINITION. Command words: the decoder, total and rejecting by name, and the encoder, both from the encoding table
of 30_encoding.md R50 to R53. -/

namespace Sys2Proof

/-- Why a command word is illegal, after the three cases of R53. -/
inductive Illegal where
  /-- R53 (a): `op` is 0x00 or 0x0B..0xFF. -/
  | unassignedOp
  /-- R53 (b): a command without an operand has a non-zero `arg`. -/
  | nonzeroArg
  /-- R53 (c): PMSTEP or ENCCH has a non-zero `arg[7:5]`. -/
  | reservedArgBits
  deriving DecidableEq, Repr

/-- The field `op`, bits 15:8 (R50). -/
def opField (w : CommandWord) : BitVec 8 := w.extractLsb' 8 8

/-- The field `arg`, bits 7:0 (R50). -/
def argField (w : CommandWord) : BitVec 8 := w.extractLsb' 0 8

/-- A command that takes no operand: `arg` must be 0x00 (R51, R53). -/
def noOperand (arg : BitVec 8) (i : Instr) : Except Illegal Instr :=
  if arg = 0 then .ok i else .error .nonzeroArg

/-- A command that takes a data word: `v = arg[4:0]`, `arg[7:5]` must be 0 (R51, R52, R53). -/
def wordOperand (arg : BitVec 8) (i : DataWord → Instr) : Except Illegal Instr :=
  if arg.extractLsb' 5 3 = 0 then .ok (i (arg.extractLsb' 0 5)) else .error .reservedArgBits

/-- The command a word encodes, or why it encodes none (R51, R53). -/
def decodeCommand (w : CommandWord) : Except Illegal Instr :=
  match (opField w).toNat with
  | 0x01 => noOperand (argField w) .pminit
  | 0x02 => wordOperand (argField w) .pmstep
  | 0x03 => noOperand (argField w) .pmrun
  | 0x04 => wordOperand (argField w) .encch
  | 0x05 => .ok (.decch (argField w))
  | 0x06 => noOperand (argField w) .hrpx
  | 0x07 => noOperand (argField w) .ckcreate
  | 0x08 => noOperand (argField w) .ckverify
  | 0x09 => noOperand (argField w) .encode
  | 0x0A => noOperand (argField w) .decode
  | _ => .error .unassignedOp

/-- The operation code of a command (R51). -/
def opcode : Instr → BitVec 8
  | .pminit => 0x01
  | .pmstep _ => 0x02
  | .pmrun => 0x03
  | .encch _ => 0x04
  | .decch _ => 0x05
  | .hrpx => 0x06
  | .ckcreate => 0x07
  | .ckverify => 0x08
  | .encode => 0x09
  | .decode => 0x0A

/-- The operand byte of a command (R51, R52). -/
def argOf : Instr → BitVec 8
  | .pmstep v => v.setWidth 8
  | .encch v => v.setWidth 8
  | .decch c => c
  | .pminit => 0
  | .pmrun => 0
  | .hrpx => 0
  | .ckcreate => 0
  | .ckverify => 0
  | .encode => 0
  | .decode => 0

/-- The command word of a command: `(op << 8) | arg` (R64). -/
def encodeCommand (i : Instr) : CommandWord := opcode i ++ argOf i

/-- The command in a table word of `nbits` bits: bits at and above `nbits` are 0, and a value that does not fit the
16 bits of a command word is none (R50). -/
def decodeTableWord (nbits w : Nat) : Option Instr :=
  let v := w % 2 ^ nbits
  if v < 2 ^ 16 then (decodeCommand (BitVec.ofNat 16 v)).toOption else none

end Sys2Proof
end

