-- ==== Sys2Proof/Config.lean ====
section
/-! DEFINITION. What the spec leaves open: the contents of the three buffers after a reset (10_state.md R30,
70_reset_and_hazards.md R121, 93_implementation_defined.md S1). They are free values: constants without a body, so
nothing can be proved about them. The first argument numbers the reset (0 is power-on), because after a later
`Reset()` the contents are arbitrary again; the second is the index. DESIGN CHOICE, log entry 4, safe. -/

namespace Sys2Proof

/-- Element `index` of HB after reset number `reset`: any 8-bit value. -/
opaque Config.hbAtReset (reset index : Nat) : Code

/-- Element `index` of WB after reset number `reset`: any 5-bit value. -/
opaque Config.wbAtReset (reset index : Nat) : DataWord

/-- Element `index` of SB after reset number `reset`: any 8-bit value. -/
opaque Config.sbAtReset (reset index : Nat) : Code

end Sys2Proof
end

