-- ==== Sys2Proof/Machine/State.lean ====
section
/-! DEFINITION. The state of PCE (10_state.md R14 to R23, R30), the error kinds (60_exceptions.md R108), the host
primitives (20_memory.md R33), and the reset state. -/

namespace Sys2Proof.Machine

/-- The error kinds of R108 that have a code other than 0. A kind is a result in STATUS.ERR, not a fault (R107). -/
inductive ErrorKind where
  /-- DECODE stage 1: the string is longer than 90 (R94). -/
  | stringLengthExceeded
  /-- DECODE stage 2: a character outside 33..126 (R95). -/
  | nonPrintableCharacter
  /-- DECODE stage 2: both cases present (R95). -/
  | invalidCase
  /-- DECODE stage 3: no delimiter (R96). -/
  | noChecksumMarker
  /-- DECODE stage 4, ENCODE: empty HRP (R97, R90). -/
  | incorrectHrpSize
  /-- DECODE stage 5: fewer than 6 characters after the delimiter (R98). -/
  | incorrectChecksumSize
  /-- DECODE stage 6: a data character outside the alphabet (R99). ENCODE: a non-printable HRP character (R90). -/
  | invalidCharacter
  /-- DECODE stage 8: the polymod is not 1 (R101). -/
  | checksumMismatch
  /-- HRPX, ENCODE: the result does not fit its buffer (R81, R91). -/
  | capacityExceeded
  /-- Any illegal command word (R112). -/
  | illegalCommand
  deriving DecidableEq, Repr

/-- The three buffers (R23). -/
inductive BufId where
  /-- The HRP buffer. -/
  | hb
  /-- The word buffer. -/
  | wb
  /-- The string buffer. -/
  | sb
  deriving DecidableEq, Repr

/-- The element width of a buffer (R23, R32). -/
abbrev BufId.elemWidth : BufId → Nat
  | .hb => 8
  | .wb => 5
  | .sb => 8

/-- The width of register `n` (R15). For `n >= 8` there is no register and the spec gives no width; 32 is the
model's: DESIGN CHOICE, log entry 6, safe, since the value is ignored (R34). -/
abbrev regWidth : Nat → Nat
  | 0 => 16
  | 4 => 8
  | 5 => 8
  | 6 => 8
  | 7 => 8
  | _ => 32

/-- The five host primitives (R33). A value has the width of the register or element it is written to, so a wider one
cannot be presented (R24, 93_implementation_defined.md U1). -/
inductive HostAction where
  /-- `RegRead(n)`. -/
  | regRead (n : Nat)
  /-- `RegWrite(n, v)`; for `n = 0` it executes command `v` (R16). -/
  | regWrite (n : Nat) (v : BitVec (regWidth n))
  /-- `BufRead(B, i)`. -/
  | bufRead (b : BufId) (i : Fin 256)
  /-- `BufWrite(B, i, v)`. -/
  | bufWrite (b : BufId) (i : Fin 256) (v : BitVec b.elemWidth)
  /-- `Reset()`. -/
  | reset
  deriving DecidableEq, Repr

/-- The state of one PCE instance: the registers and buffers of R14, and three fields of the model's own for the host's
side (`script`, `answers`, `resets`; log entries 1, 3, 4). CMD stores nothing (R16) and has no field. -/
@[ext]
structure State where
  /-- STATUS.ERR, the error code of the most recent command (R17). -/
  err : BitVec 4
  /-- STATUS.VALID (R17). -/
  valid : Bool
  /-- CHK, the polymod accumulator (R18). -/
  chk : Accum
  /-- CKSUM, the last created checksum (R20). -/
  cksum : Accum
  /-- RES, the result of the last ENCCH or DECCH (R21). -/
  res : BitVec 8
  /-- HLEN, the length of the HRP in HB (R22). -/
  hlen : BitVec 8
  /-- WLEN, the length of the word sequence in WB (R22). -/
  wlen : BitVec 8
  /-- SLEN, the length of the string in SB (R22). -/
  slen : BitVec 8
  /-- HB, the HRP buffer (R23). -/
  hb : Buf 8
  /-- WB, the word buffer (R23). -/
  wb : Buf 5
  /-- SB, the string buffer (R23). -/
  sb : Buf 8
  /-- The model's own: the host primitives still to be performed, the next one first. DESIGN CHOICE, log entry 1, safe. -/
  script : List HostAction
  /-- The model's own: the values returned by reads, oldest first. DESIGN CHOICE, log entry 3, safe. -/
  answers : List (BitVec 32)
  /-- The model's own: how many `Reset()` have been performed; it numbers the free values. DESIGN CHOICE, log entry 4, safe. -/
  resets : Nat
  deriving DecidableEq, Repr

/-- A fault of the machine: there is none. Every primitive and every command has a defined outcome and an error is a
result in STATUS.ERR (R107, R38, end of section 2 of 93_implementation_defined.md). DEDUCED, log entry 7, safe. -/
inductive Fault
  deriving DecidableEq, Repr

/-- Why the model gives an instruction no meaning. -/
inductive Refusal where
  /-- Raised by an arm of `exec` whose instruction has no meaning yet. No arm raises it now. Safe. -/
  | notModelled (mnemonic : String)
  deriving DecidableEq, Repr

/-- The state left by reset number `k` (R30, R121): every register at its stated value, the elements of the three
buffers unspecified (free values, log entry 4), and nothing on the host's side. -/
def State.atReset (k : Nat) : State where
  err := 0
  valid := false
  chk := 1
  cksum := 0
  res := 0
  hlen := 0
  wlen := 0
  slen := 0
  hb := Buf.tabulate (Config.hbAtReset k)
  wb := Buf.tabulate (Config.wbAtReset k)
  sb := Buf.tabulate (Config.sbAtReset k)
  script := []
  answers := []
  resets := k

/-- The machine right after power-on (R121: power-on has the effect of a reset). -/
def State.reset : State := State.atReset 0

def State.setErr (s : State) (e : BitVec 4) : State := { s with err := e }
def State.setValid (s : State) (b : Bool) : State := { s with valid := b }
def State.setChk (s : State) (c : Accum) : State := { s with chk := c }
def State.setCksum (s : State) (c : Accum) : State := { s with cksum := c }
def State.setRes (s : State) (r : BitVec 8) : State := { s with res := r }
def State.setHlen (s : State) (n : BitVec 8) : State := { s with hlen := n }
def State.setWlen (s : State) (n : BitVec 8) : State := { s with wlen := n }
def State.setSlen (s : State) (n : BitVec 8) : State := { s with slen := n }
def State.setHb (s : State) (b : Buf 8) : State := { s with hb := b }
def State.setWb (s : State) (b : Buf 5) : State := { s with wb := b }
def State.setSb (s : State) (b : Buf 8) : State := { s with sb := b }
def State.setScript (s : State) (as : List HostAction) : State := { s with script := as }
def State.setAnswers (s : State) (vs : List (BitVec 32)) : State := { s with answers := vs }

end Sys2Proof.Machine
end

