-- ==== Sys2Proof/Machine/Flags.lean ====
section
/-! DEFINITION. STATUS: the error codes (60_exceptions.md R108), the register as the host reads it (10_state.md R17),
and what a command that completes writes. PCE has no other flag (R27). -/

namespace Sys2Proof.Machine

/-- The code of an error kind (R108); 0 is no error. -/
def errorCode : ErrorKind → BitVec 4
  | .stringLengthExceeded => 1
  | .nonPrintableCharacter => 2
  | .invalidCase => 3
  | .noChecksumMarker => 4
  | .incorrectHrpSize => 5
  | .incorrectChecksumSize => 6
  | .invalidCharacter => 7
  | .checksumMismatch => 8
  | .capacityExceeded => 9
  | .illegalCommand => 10

/-- STATUS as the host reads it: ERR in bits 3:0, VALID in bit 4, bits 31:5 zero (R17). -/
def State.status (s : State) : BitVec 32 := (BitVec.ofBool s.valid ++ s.err).setWidth 32

/-- A command that completes writes ERR with 0 (R17, R110). -/
def State.complete (s : State) : State := s.setErr 0

end Sys2Proof.Machine
end

