-- ==== Sys2Proof/Machine/Ops.lean ====
section
/-! DEFINITION. The named operations over registers and buffers: access by the host (20_memory.md R33 to R35), the
sequences of a buffer (00_scope.md R9), `raise` (R9, 60_exceptions.md R107, R111), and the reset primitive
(70_reset_and_hazards.md R121). -/

namespace Sys2Proof.Machine

/-- The sequence `B[0..n)` (R9). -/
def loadBuf {w : Nat} (b : Buf w) (n : Nat) : List (BitVec w) := b.toList.take n

/-- `B[k] <- xs[k]` for every position `k` of `xs`; the elements beyond keep their values (R23). A sequence longer than
the buffer is cut; no command offers one (R81, R91, R103). -/
def storeBuf {w : Nat} (b : Buf w) (xs : List (BitVec w)) : Buf w :=
  ⟨((xs ++ b.toList.drop xs.length).take 256).toArray, by simp; omega⟩

/-- A length register's value for a sequence of `n` elements (R22); every command keeps `n` at or below 255. -/
def lengthReg (n : Nat) : BitVec 8 := BitVec.ofNat 8 n

/-- `raise E`: the command ends with ERR holding the code of `E` (R9, R107). This is all of PCE's error entry: nothing is
saved, no mode changes, control goes nowhere and there is nothing to return from (R114, R115). The failure writes that
R111 lists beside ERR are in each command's own rule. -/
def State.raise (s : State) (k : ErrorKind) : State := s.setErr (errorCode k)

/-- The value of register `n` as `RegRead` returns it, zero-extended to 32 bits (R15, R33). CMD reads as 0 (R35) and so does
a number that names no register (R34). -/
def State.readReg (s : State) : Nat → BitVec 32
  | 1 => s.status
  | 2 => s.chk
  | 3 => s.cksum
  | 4 => s.res.setWidth 32
  | 5 => s.hlen.setWidth 32
  | 6 => s.wlen.setWidth 32
  | 7 => s.slen.setWidth 32
  | _ => 0

/-- The element `B[i]` (R33). -/
def State.readBuf (s : State) : (b : BufId) → Fin 256 → BitVec b.elemWidth
  | .hb, i => s.hb[i]
  | .wb, i => s.wb[i]
  | .sb, i => s.sb[i]

/-- `B[i] <- v` (R33). -/
def State.writeBuf (s : State) : (b : BufId) → Fin 256 → BitVec b.elemWidth → State
  | .hb, i, v => s.setHb (s.hb.set i v)
  | .wb, i, v => s.setWb (s.wb.set i v)
  | .sb, i, v => s.setSb (s.sb.set i v)

/-- A read returns `v` to the host and changes nothing else (R33, R40). -/
def State.answer (s : State) (v : BitVec 32) : State := s.setAnswers (s.answers ++ [v])

/-- `Reset()` (R121): every register at its reset value, the buffers arbitrary again. The host's side is not PCE's and
stays: its script and the answers it has had (log entry 1). -/
def State.resetPrimitive (s : State) : State :=
  ((State.atReset (s.resets + 1)).setScript s.script).setAnswers s.answers

end Sys2Proof.Machine
end

