-- ==== Sys2Proof/Machine/Operands.lean ====
section
/-! DEFINITION. The fixed operands of the commands: the sequences held in the buffers (10_state.md R22, R23, R31). The
operands that a command word carries, `v` and `c`, are taken apart by the decoder (30_encoding.md R52). -/

namespace Sys2Proof.Machine

/-- `HB[0..HLEN)`, the HRP. -/
def State.hrpInput (s : State) : List Code := loadBuf s.hb s.hlen.toNat

/-- `WB[0..WLEN)`, the word sequence. -/
def State.wordInput (s : State) : List DataWord := loadBuf s.wb s.wlen.toNat

/-- `SB[0..SLEN)`, the string. -/
def State.stringInput (s : State) : List Code := loadBuf s.sb s.slen.toNat

end Sys2Proof.Machine
end

