-- ==== Sys2Proof/Machine/Rom.lean ====
section
/-! DEFINITION. The three ROMs, constants and not state (10_state.md R25): GEN (30_encoding.md R57), ENC (R55) and DEC
(R56); and the source's other constants (00_scope.md R7). The ASCII codes are those R55 tabulates, which the spec marks
as general knowledge (93_implementation_defined.md G1). -/

namespace Sys2Proof.Machine

/-- GEN, the five generator constants (R57). -/
def genRom : Vector Accum 5 :=
  #v[0x3b6a57b2, 0x26508e6d, 0x1ea119fa, 0x3d4233dd, 0x2a1462b3]

/-- ENC: the code of the alphabet's character at each value 0..31 (R55). -/
def encRom : Vector Code 32 :=
  #v[0x71, 0x70, 0x7A, 0x72, 0x79, 0x39, 0x78, 0x38, 0x67, 0x66, 0x32, 0x74, 0x76, 0x64, 0x77, 0x30,
    0x73, 0x33, 0x6A, 0x6E, 0x35, 0x34, 0x6B, 0x68, 0x63, 0x65, 0x36, 0x6D, 0x75, 0x61, 0x37, 0x6C]

/-- The sentinel −1 of DEC, stored as 0xFF (R56). -/
def sentinel : BitVec 8 := 0xFF#8

/-- Sixteen sentinel entries: a row of R56's table without a valid code. -/
def decRowNone : Vector (BitVec 8) 16 := Vector.replicate 16 sentinel

/-- The row 0x30..0x3F of R56's table. -/
def decRow3 : Vector (BitVec 8) 16 :=
  #v[15, sentinel, 10, 17, 21, 20, 26, 30, 7, 5, sentinel, sentinel, sentinel, sentinel, sentinel, sentinel]

/-- The row 0x60..0x6F of R56's table. -/
def decRow6 : Vector (BitVec 8) 16 :=
  #v[sentinel, 29, sentinel, 24, 13, 25, 9, 8, 23, sentinel, 18, 22, 31, 27, 19, sentinel]

/-- The row 0x70..0x7F of R56's table. -/
def decRow7 : Vector (BitVec 8) 16 :=
  #v[1, 0, 3, 16, 11, 28, 12, 14, 6, 4, 2, sentinel, sentinel, sentinel, sentinel, sentinel]

/-- DEC: the value of each code 0..127, or the sentinel (R56). -/
def decRom : Vector (BitVec 8) 128 :=
  decRowNone ++ decRowNone ++ decRowNone ++ decRow3 ++ decRowNone ++ decRowNone ++ decRow6 ++ decRow7

/-- The delimiter `'1'` (R7, R58). -/
def delimiter : Code := 0x31#8

/-- MAXLEN, the longest string DECODE accepts (R7, R94). -/
def maxLen : Nat := 90

/-- The largest length a length register can describe (R7, R22). -/
def maxCapacity : Nat := 255

end Sys2Proof.Machine
end

