-- ==== Sys2Proof/Machine/Charset.lean ====
section
/-! DEFINITION. The charset family: ENCCH and DECCH (40_charset.md R66 to R70), and the character helpers of
00_scope.md R11. -/

namespace Sys2Proof.Machine

/-- Printable: a code in 33..126 (R11). -/
def isPrintable (c : Code) : Bool := decide (33 ≤ c.toNat) && decide (c.toNat ≤ 126)

/-- A lower-case letter: a code in 97..122 (R11). -/
def isLower (c : Code) : Bool := decide (97 ≤ c.toNat) && decide (c.toNat ≤ 122)

/-- An upper-case letter: a code in 65..90 (R11). -/
def isUpper (c : Code) : Bool := decide (65 ≤ c.toNat) && decide (c.toNat ≤ 90)

/-- `fold`: an upper-case letter plus 32, any other code unchanged (R11). -/
def fold (c : Code) : Code := if isUpper c then c + 32#8 else c

/-- `lowercase`: `fold` of every character (R11). -/
def lowercase (cs : List Code) : List Code := cs.map fold

/-- `enc_char(v)`: the character at index `v` of the alphabet (R66). -/
def encChar (v : DataWord) : Code := encRom[v.toNat]

/-- `dec_char(c)`: the sentinel for a code of 128 or more, else the DEC entry of the folded code (R67). A folded code below
128 is below 128, so the second test never fails; it is what makes the index legal. -/
def decChar (c : Code) : BitVec 8 :=
  if c.toNat ≥ 128 then sentinel
  else if h : (fold c).toNat < 128 then decRom[(fold c).toNat] else sentinel

/-- ENCCH `v` (R69): `RES <- enc_char(v)`. -/
def execEncch (v : DataWord) (s : State) : Host.Outcome State Fault Refusal :=
  .next (s.setRes (encChar v)).complete

/-- DECCH `c` (R70): `RES <- dec_char(c)`; a character outside the alphabet is no error. -/
def execDecch (c : Code) (s : State) : Host.Outcome State Fault Refusal :=
  .next (s.setRes (decChar c)).complete

end Sys2Proof.Machine
end

