-- ==== Sys2Proof/Machine/HrpExpansion.lean ====
section
/-! DEFINITION. The HRP expansion family: `expand_hrp` and HRPX (42_hrp_expansion.md R79 to R81). -/

namespace Sys2Proof.Machine

/-- The high part of a character: `c >> 5`, that is `c[7:5]` (R37, R79). -/
def highPart (c : Code) : DataWord := (c >>> 5).setWidth 5

/-- The low part of a character: `c & 0x1f`, that is `c[4:0]` (R37, R79). -/
def lowPart (c : Code) : DataWord := (c &&& 0x1f#8).setWidth 5

/-- `expand_hrp(hrp)`: the high parts, a single 0, the low parts (R79, R62). -/
def expandHrp (hrp : List Code) : List DataWord :=
  hrp.map highPart ++ [0#5] ++ hrp.map lowPart

/-- HRPX (R81). -/
def execHrpx (s : State) : Host.Outcome State Fault Refusal :=
  let n := 2 * s.hlen.toNat + 1
  if n > maxCapacity then
    .next ((s.setWlen 0).raise .capacityExceeded)
  else
    .next ((s.setWb (storeBuf s.wb (expandHrp s.hrpInput))).setWlen (lengthReg n)).complete

end Sys2Proof.Machine
end

