-- ==== Sys2Proof/Machine/Polymod.lean ====
section
/-! DEFINITION. The polymod family: the step and the function, PMINIT, PMSTEP and PMRUN (41_polymod.md R71 to R78). -/

namespace Sys2Proof.Machine

/-- One round of R71's loop: `chk' XOR GEN[i]` if bit `i` of `top` is set. -/
def feedback (top chk : Accum) (i : Fin 5) : Accum :=
  if top.getLsbD i then chk ^^^ genRom[i] else chk

/-- `pm_step(chk, v)` (R71). -/
def pmStep (chk : Accum) (v : DataWord) : Accum :=
  let top := chk >>> 25
  let chk' := ((chk &&& 0x01ffffff#32) <<< 5) ^^^ v.setWidth 32
  [0, 1, 2, 3, 4].foldl (feedback top) chk'

/-- The accumulator's initial value (R72, R76). -/
def chkInit : Accum := 0x00000001#32

/-- `polymod(ws)`: the left fold of `pm_step` from 1 (R72). -/
def polymod (ws : List DataWord) : Accum := ws.foldl pmStep chkInit

/-- PMINIT (R76): `CHK <- 1`. -/
def execPminit (s : State) : Host.Outcome State Fault Refusal :=
  .next (s.setChk chkInit).complete

/-- PMSTEP `v` (R77): `CHK <- pm_step(CHK, v)`. -/
def execPmstep (v : DataWord) (s : State) : Host.Outcome State Fault Refusal :=
  .next (s.setChk (pmStep s.chk v)).complete

/-- PMRUN (R78): `CHK <- polymod(WB[0..WLEN))`. -/
def execPmrun (s : State) : Host.Outcome State Fault Refusal :=
  .next (s.setChk (polymod s.wordInput)).complete

end Sys2Proof.Machine
end

