-- ==== Sys2Proof/Machine/Checksum.lean ====
section
/-! DEFINITION. The checksum family: creation and verification, CKCREATE and CKVERIFY (43_checksum.md R82 to R86). -/

namespace Sys2Proof.Machine

/-- The pair `(P, mod)` of `create_checksum(hrp, payload)` (R82). -/
def createChecksum (hrp : List Code) (payload : List DataWord) : Accum × Accum :=
  let p := polymod (expandHrp hrp ++ payload ++ List.replicate 6 0#5)
  (p, p ^^^ 1#32)

/-- The checksum word `ck[i] = (mod >> (5*(5-i))) & 0x1f` (R61, R82). -/
def checksumWord (mod : Accum) (i : Nat) : DataWord := ((mod >>> (5 * (5 - i))) &&& 0x1f#32).setWidth 5

/-- The six checksum words of `mod`, most significant first (R61, R82). -/
def checksumWords (mod : Accum) : List DataWord := [0, 1, 2, 3, 4, 5].map (checksumWord mod)

/-- The pair `(P, ok)` of `verify_checksum(hrp, words)` (R83). -/
def verifyChecksum (hrp : List Code) (words : List DataWord) : Accum × Bool :=
  let p := polymod (expandHrp hrp ++ words)
  (p, decide (p = 1#32))

/-- CKCREATE (R85): `CHK <- P`, `CKSUM <- mod`. -/
def execCkcreate (s : State) : Host.Outcome State Fault Refusal :=
  let (p, mod) := createChecksum s.hrpInput s.wordInput
  .next ((s.setChk p).setCksum mod).complete

/-- CKVERIFY (R86): `CHK <- P`, `VALID <- ok`; an invalid checksum is no error. -/
def execCkverify (s : State) : Host.Outcome State Fault Refusal :=
  let (p, ok) := verifyChecksum s.hrpInput s.wordInput
  .next ((s.setChk p).setValid ok).complete

end Sys2Proof.Machine
end

