-- ==== Sys2Proof/Machine/DecodeString.lean ====
section
/-! DEFINITION. The decode family: the nine stages and DECODE (45_decode.md R94 to R103). -/

namespace Sys2Proof.Machine

/-- What the nine stages give. -/
inductive DecodeResult where
  /-- A stage before the polymod fails with kind `k` (R94 to R99). -/
  | failed (k : ErrorKind)
  /-- Stage 8 computes a polymod `p` other than 1 (R101). -/
  | mismatch (p : Accum)
  /-- Every stage passes: the lower-cased HRP, the payload, and the polymod (R102). -/
  | decoded (hrp : List Code) (payload : List DataWord) (p : Accum)
  deriving DecidableEq, Repr

/-- Stage 3: the largest index that holds the delimiter, if there is one (R96). -/
def lastDelimiter : List Code → Option Nat
  | [] => none
  | c :: cs =>
    match lastDelimiter cs with
    | some k => some (k + 1)
    | none => if c = delimiter then some 0 else none

/-- Stage 6: the data words of the characters after the delimiter, or none if one of them is not in the alphabet (R99). -/
def mapCharacters : List Code → Option (List DataWord)
  | [] => some []
  | c :: cs =>
    let d := decChar c
    if d = sentinel then none
    else
      match mapCharacters cs with
      | some ws => some (d.setWidth 5 :: ws)
      | none => none

/-- Stages 7 to 9: lower-case the HRP, verify the checksum, drop the six checksum words (R100, R101, R102). -/
def decodeVerify (hrpPart : List Code) (words : List DataWord) : DecodeResult :=
  let hrp := lowercase hrpPart
  let (p, ok) := verifyChecksum hrp words
  if ok then .decoded hrp (words.take (words.length - 6)) p else .mismatch p

/-- Stages 4 to 9, once the delimiter is known to stand at `pos` (R97 to R102). -/
def decodeAt (str : List Code) (pos : Nat) : DecodeResult :=
  if pos < 1 then .failed .incorrectHrpSize
  else if pos + 7 > str.length then .failed .incorrectChecksumSize
  else
    match mapCharacters (str.drop (pos + 1)) with
    | none => .failed .invalidCharacter
    | some words => decodeVerify (str.take pos) words

/-- The nine stages on the string `SB[0..SLEN)`, each failing fast (R94 to R102, R113). -/
def decodeString (str : List Code) : DecodeResult :=
  if str.length > maxLen then .failed .stringLengthExceeded
  else if str.any (fun c => !isPrintable c) then .failed .nonPrintableCharacter
  else if str.any isLower && str.any isUpper then .failed .invalidCase
  else
    match lastDelimiter str with
    | none => .failed .noChecksumMarker
    | some pos => decodeAt str pos

/-- A failing DECODE (R103, R111): the lengths to 0, VALID to 0, the kind; CHK and the buffers as they were. -/
def State.decodeFails (s : State) (k : ErrorKind) : State :=
  (((s.setHlen 0).setWlen 0).setValid false).raise k

/-- A successful DECODE (R103): HB, HLEN, WB, WLEN, CHK, VALID. -/
def State.decodeSucceeds (s : State) (hrp : List Code) (payload : List DataWord) (p : Accum) : State :=
  let s := (s.setChk p).setValid true
  let s := (s.setHb (storeBuf s.hb hrp)).setHlen (lengthReg hrp.length)
  ((s.setWb (storeBuf s.wb payload)).setWlen (lengthReg payload.length)).complete

/-- DECODE (R103). -/
def execDecode (s : State) : Host.Outcome State Fault Refusal :=
  match decodeString s.stringInput with
  | .failed k => .next (s.decodeFails k)
  | .mismatch p => .next ((s.setChk p).decodeFails .checksumMismatch)
  | .decoded hrp payload p => .next (s.decodeSucceeds hrp payload p)

end Sys2Proof.Machine
end

