-- ==== Sys2Proof/Machine/EncodeString.lean ====
section
/-! DEFINITION. The encode family: `encode_string` and ENCODE (44_encode.md R87 to R91). -/

namespace Sys2Proof.Machine

/-- The combined string `hrp ++ '1' ++ characters of (payload ++ checksum)` for a checksum value `mod` (R58, R87). -/
def combinedString (hrp : List Code) (payload : List DataWord) (mod : Accum) : List Code :=
  hrp ++ [delimiter] ++ (payload ++ checksumWords mod).map encChar

/-- `encode_string(hrp, payload)` (R87): neither the case of the HRP nor the length of the result is touched (R88, R89). -/
def encodeString (hrp : List Code) (payload : List DataWord) : List Code :=
  combinedString hrp payload (createChecksum hrp payload).2

/-- ENCODE's checks, in their order (R90, R91, R113): the kind of the first that fails. -/
def encodeCheck (hrp : List Code) (payload : List DataWord) : Option ErrorKind :=
  if hrp.length = 0 then some .incorrectHrpSize
  else if hrp.any (fun c => !isPrintable c) then some .invalidCharacter
  else if hrp.length + 1 + payload.length + 6 > maxCapacity then some .capacityExceeded
  else none

/-- A failing ENCODE (R91, R111): `SLEN <- 0` and the kind; nothing else. -/
def State.encodeFails (s : State) (k : ErrorKind) : State := (s.setSlen 0).raise k

/-- A successful ENCODE (R91): CHK, CKSUM, SB and SLEN. -/
def State.encodeSucceeds (s : State) : State :=
  let (p, mod) := createChecksum s.hrpInput s.wordInput
  let str := encodeString s.hrpInput s.wordInput
  ((((s.setChk p).setCksum mod).setSb (storeBuf s.sb str)).setSlen (lengthReg str.length)).complete

/-- ENCODE (R91). -/
def execEncode (s : State) : Host.Outcome State Fault Refusal :=
  match encodeCheck s.hrpInput s.wordInput with
  | some k => .next (s.encodeFails k)
  | none => .next s.encodeSucceeds

end Sys2Proof.Machine
end

