-- ==== Sys2Proof/Machine/Dispatch.lean ====
section
/-! DEFINITION. One arm per command of 30_encoding.md R51, each one call of its meaning. -/

namespace Sys2Proof.Machine

def exec (i : Instr) (s : State) : Host.Outcome State Fault Refusal :=
  match i with
  | .pminit => Sys2Proof.Machine.execPminit s
  | .pmstep v => Sys2Proof.Machine.execPmstep v s
  | .pmrun => Sys2Proof.Machine.execPmrun s
  | .encch v => Sys2Proof.Machine.execEncch v s
  | .decch c => Sys2Proof.Machine.execDecch c s
  | .hrpx => Sys2Proof.Machine.execHrpx s
  | .ckcreate => Sys2Proof.Machine.execCkcreate s
  | .ckverify => Sys2Proof.Machine.execCkverify s
  | .encode => Sys2Proof.Machine.execEncode s
  | .decode => Sys2Proof.Machine.execDecode s

end Sys2Proof.Machine
end

