-- ==== Sys2Proof/Machine/HostActions.lean ====
section
/-! DEFINITION. What each of the five host primitives does (20_memory.md R33 to R35); a write of CMD executes the
command word (10_state.md R16), and an illegal word is a result, not a stop (60_exceptions.md R112). -/

namespace Sys2Proof.Machine

/-- A command word written to CMD (R16): its command, or `ERR <- 10` and nothing else if it is illegal (R53, R112). -/
def runCommand (w : CommandWord) (s : State) : Host.Outcome State Fault Refusal :=
  match decodeCommand w with
  | .ok i => exec i s
  | .error _ => .next (s.raise .illegalCommand)

/-- `RegWrite(n, v)`: CMD executes, the length registers take the value, and a write of a read-only register (R35) or of a
number that names no register (R34) changes nothing. -/
def writeReg : (n : Nat) → BitVec (regWidth n) → State → Host.Outcome State Fault Refusal
  | 0, w, s => runCommand w s
  | 5, v, s => .next (s.setHlen v)
  | 6, v, s => .next (s.setWlen v)
  | 7, v, s => .next (s.setSlen v)
  | _, _, s => .next s

/-- One host primitive (R33). -/
def perform : HostAction → State → Host.Outcome State Fault Refusal
  | .regRead n, s => .next (s.answer (s.readReg n))
  | .regWrite n v, s => writeReg n v s
  | .bufRead b i, s => .next (s.answer ((s.readBuf b i).setWidth 32))
  | .bufWrite b i v, s => .next (s.writeBuf b i v)
  | .reset, s => .next s.resetPrimitive

end Sys2Proof.Machine
end

