-- ==== Sys2Proof/Machine/Step.lean ====
section
/-! DEFINITION. One step: the host's next primitive takes effect (20_memory.md R33, R39, R43, 70_reset_and_hazards.md
R124). PCE fetches nothing (R26, R47): the command comes from the host's script. -/

namespace Sys2Proof.Machine

/-- The first primitive of the host's script, performed on the state with the rest of the script left. With nothing left PCE
is idle and does nothing on its own (R122): DEDUCED, log entry 2, safe. -/
def step (s : State) : Host.Outcome State Fault Refusal :=
  match s.script with
  | [] => .next s
  | a :: rest => perform a (s.setScript rest)

/-- `s` with a write of the given command word to CMD put first in the host's script (log entry 1). -/
def State.withFetchWord (s : State) (nbits w : Nat) : State :=
  s.setScript (.regWrite 0 (BitVec.ofNat 16 (w % 2 ^ nbits)) :: s.script)

end Sys2Proof.Machine
end

