-- ==== Sys2Proof/Safety.lean ====
section
/-! DEFINITION. The terms in which claims are stated: the bounds every reachable state keeps, what it is for an outcome to
complete, what the host can tell of two states, and the contents of the buffers written out element by element, apart from
the functions the meanings use. -/

namespace Sys2Proof.Machine

/-- CHK and CKSUM have 30 significant bits (10_state.md R19, R20) and ERR never holds 11..15 (60_exceptions.md R108). -/
abbrev State.Inv (s : State) : Prop :=
  s.chk.toNat < 2 ^ 30 ∧ s.cksum.toNat < 2 ^ 30 ∧ s.err.toNat ≤ 10

/-- Writing the word `w` to CMD is the command `i` (R16). -/
def RunsWord (w : CommandWord) (i : Instr) : Prop :=
  ∀ s : State, perform (.regWrite 0 w) s = exec i s

/-- Writing the word `w` to CMD puts 10 into ERR and changes nothing else (R112). -/
def RejectsWord (w : CommandWord) : Prop :=
  ∀ s : State, perform (.regWrite 0 w) s = .next { s with err := 10 }

/-- Two buffers agree on the sequence `B[0..n)`. -/
def AgreeBelow {w : Nat} (n : BitVec 8) (b b' : Buf w) : Prop :=
  ∀ i : Fin 256, i.val < n.toNat → b[i] = b'[i]

/-- Two states have equal registers and agree on the three sequences their lengths describe; the elements at or beyond the
lengths may differ (10_state.md R23). The host's side is equal. -/
def SameSequences (s t : State) : Prop :=
  { t with hb := s.hb, wb := s.wb, sb := s.sb } = s ∧
  AgreeBelow s.hlen s.hb t.hb ∧ AgreeBelow s.wlen s.wb t.wb ∧ AgreeBelow s.slen s.sb t.sb

/-- The list `xs` is the sequence `B[0..n)`. -/
abbrev SequenceIs {w : Nat} (b : Buf w) (n : BitVec 8) (xs : List (BitVec w)) : Prop :=
  xs.length = n.toNat ∧ ∀ k : Fin 256, k.val < n.toNat → xs[k.val]? = some b[k]

/-- Every character of `HB[0..HLEN)` is a code in 33..126. -/
abbrev State.HrpPrintable (s : State) : Prop :=
  ∀ k : Fin 256, k.val < s.hlen.toNat → 33 ≤ s.hb[k].toNat ∧ s.hb[k].toNat ≤ 126

/-- Every character of `SB[0..SLEN)` is a code in 33..126. -/
abbrev State.StringPrintable (s : State) : Prop :=
  ∀ k : Fin 256, k.val < s.slen.toNat → 33 ≤ s.sb[k].toNat ∧ s.sb[k].toNat ≤ 126

/-- `SB[0..SLEN)` holds a code in 97..122 and a code in 65..90. -/
abbrev State.StringMixesCase (s : State) : Prop :=
  (∃ k : Fin 256, k.val < s.slen.toNat ∧ 97 ≤ s.sb[k].toNat ∧ s.sb[k].toNat ≤ 122) ∧
  (∃ k : Fin 256, k.val < s.slen.toNat ∧ 65 ≤ s.sb[k].toNat ∧ s.sb[k].toNat ≤ 90)

/-- `pos` is the largest index below SLEN at which SB holds 0x31. -/
abbrev State.DelimiterAt (s : State) (pos : Fin 256) : Prop :=
  pos.val < s.slen.toNat ∧ s.sb[pos] = 0x31#8 ∧
  ∀ k : Fin 256, pos.val < k.val → k.val < s.slen.toNat → s.sb[k] ≠ 0x31#8

/-- The stages of DECODE up to the delimiter pass, with the delimiter at `pos` (R94, R95, R96). -/
abbrev State.SplitsAt (s : State) (pos : Fin 256) : Prop :=
  s.slen.toNat ≤ 90 ∧ s.StringPrintable ∧ ¬ s.StringMixesCase ∧ s.DelimiterAt pos

/-- Stages 1 to 7 of DECODE pass: the delimiter is at `pos`, `hrp` is the folded characters before it, and `words` are the
values of the folded characters after it (R94 to R100). -/
abbrev State.ReadsAs (s : State) (pos : Fin 256) (hrp : List Code) (words : List DataWord) : Prop :=
  s.SplitsAt pos ∧ 1 ≤ pos.val ∧ pos.val + 7 ≤ s.slen.toNat ∧
  (hrp.length = pos.val ∧ ∀ k : Fin 256, k.val < pos.val → hrp[k.val]? = some (fold s.sb[k])) ∧
  (words.length = s.slen.toNat - pos.val - 1 ∧
    ∀ k : Fin 256, pos.val < k.val → k.val < s.slen.toNat →
      (words[k.val - pos.val - 1]?).map encChar = some (fold s.sb[k]))

end Sys2Proof.Machine
end

