-- ==== Sys2Proof/Certificates/Slice0/Obligations.lean ====
section
/-! DEFINITION. The statements for the provers, in the order of spec/: encoding, the host's primitives, the whole machine,
then the command families. -/

open Sys2Proof Sys2Proof.Machine

/-! ### Command words (30_encoding.md) -/

/-- A word of each of several commands, written out bit by bit from R51's table, decodes to that command. -/
def Obligations.TableWordsDecode : Prop :=
  decodeCommand 0b0000000100000000#16 = .ok .pminit ∧
  decodeCommand 0b0000001000011111#16 = .ok (.pmstep 31) ∧
  decodeCommand 0b0000010000001010#16 = .ok (.encch 10) ∧
  decodeCommand 0b0000010101001100#16 = .ok (.decch 0x4C) ∧
  decodeCommand 0b0000011000000000#16 = .ok .hrpx ∧
  decodeCommand 0b0000011100000000#16 = .ok .ckcreate ∧
  decodeCommand 0b0000100100000000#16 = .ok .encode ∧
  decodeCommand 0b0000101000000000#16 = .ok .decode ∧
  decodeCommand 0b0000101000000001#16 = .error .nonzeroArg ∧
  decodeCommand 0b0000001000100000#16 = .error .reservedArgBits ∧
  decodeCommand 0b0000101100000000#16 = .error .unassignedOp

/-- R50 to R52: decoding the word of a command gives the command back, with every operand at every value. -/
def Obligations.DecodeOfEncodeIsTheCommand : Prop :=
  ∀ i : Instr, decodeCommand (encodeCommand i) = .ok i

/-- R51, R53: each legal word is the word of the one command it decodes to. -/
def Obligations.LegalWordIsTheWordOfItsCommand : Prop :=
  ∀ (w : CommandWord) (i : Instr), decodeCommand w = .ok i → encodeCommand i = w

/-- R53, R112: a word is illegal in exactly R53's three cases; an illegal word puts 10 into ERR and changes nothing else,
whatever the state, so no other kind can be raised; every other word is a command. -/
def Obligations.IllegalWordsOnlySetErr : Prop :=
  ∀ w : CommandWord,
    let op := w.toNat / 256
    let arg := w.toNat % 256
    let illegal := op = 0 ∨ 0x0B ≤ op ∨ (op ∈ [1, 3, 6, 7, 8, 9, 10] ∧ arg ≠ 0) ∨ (op ∈ [2, 4] ∧ 32 ≤ arg)
    (illegal → RejectsWord w) ∧ (¬ illegal → ∃ i, decodeCommand w = .ok i ∧ RunsWord w i)

/-- R53: of the 65536 command words 327 are legal. -/
def Obligations.LegalWordsNumber327 : Prop :=
  ((List.range 65536).countP fun n => (decodeCommand (BitVec.ofNat 16 n)).toOption.isSome) = 327

/-! ### The host's primitives (20_memory.md, 10_state.md, 70_reset_and_hazards.md) -/

/-- R34, R35: CMD and every number of 8 and above read as 0; a write to STATUS, CHK, CKSUM, RES or a number of 8 and above
changes nothing, ERR included. Two clauses are the model's: that the 0 comes back as a 32-bit entry of `answers` (log entry 3),
and that an access to a number of 8 and above is performed and not refused, which R34 permits too, with a written value of
32 bits (log entry 6). -/
def Obligations.AbsentAndReadOnlyRegisters : Prop :=
  ∀ s : State,
    (∀ n, n = 0 ∨ 8 ≤ n → perform (.regRead n) s = .next { s with answers := s.answers ++ [0] }) ∧
    (∀ n, 8 ≤ n → ∀ v : BitVec (regWidth n), perform (.regWrite n v) s = .next s) ∧
    (∀ v : BitVec 32, perform (.regWrite 1 v) s = .next s) ∧
    (∀ v : BitVec 32, perform (.regWrite 2 v) s = .next s) ∧
    (∀ v : BitVec 32, perform (.regWrite 3 v) s = .next s) ∧
    (∀ v : BitVec 8, perform (.regWrite 4 v) s = .next s)

/-- R15, R17, R33: what a read of each register returns, and that it changes nothing else. STATUS has ERR in bits 3:0, VALID
in bit 4 and zeros above. That the values come back as 32-bit entries of `answers` is the model's (log entry 3). -/
def Obligations.RegisterReadsReturnTheRegister : Prop :=
  ∀ s : State,
    (∃ v : BitVec 32, perform (.regRead 1) s = .next { s with answers := s.answers ++ [v] } ∧
      v.extractLsb' 0 4 = s.err ∧ v.getLsbD 4 = s.valid ∧ v.extractLsb' 5 27 = 0) ∧
    perform (.regRead 2) s = .next { s with answers := s.answers ++ [s.chk] } ∧
    perform (.regRead 3) s = .next { s with answers := s.answers ++ [s.cksum] } ∧
    perform (.regRead 4) s = .next { s with answers := s.answers ++ [s.res.setWidth 32] } ∧
    perform (.regRead 5) s = .next { s with answers := s.answers ++ [s.hlen.setWidth 32] } ∧
    perform (.regRead 6) s = .next { s with answers := s.answers ++ [s.wlen.setWidth 32] } ∧
    perform (.regRead 7) s = .next { s with answers := s.answers ++ [s.slen.setWidth 32] }

/-- R22: the host's write of HLEN, WLEN or SLEN sets that register to any value and changes nothing else. -/
def Obligations.LengthRegistersTakeAnyValue : Prop :=
  ∀ (s : State) (v : BitVec 8),
    perform (.regWrite 5 v) s = .next { s with hlen := v } ∧
    perform (.regWrite 6 v) s = .next { s with wlen := v } ∧
    perform (.regWrite 7 v) s = .next { s with slen := v }

/-- R33: a buffer write sets exactly one element of one buffer, and nothing else. -/
def Obligations.BufferWriteSetsOneElement : Prop :=
  ∀ (s : State) (b : BufId) (i : Fin 256) (v : BitVec b.elemWidth),
    ∃ t, perform (.bufWrite b i v) s = .next t ∧
      t.readBuf b i = v ∧
      (∀ (b' : BufId) (j : Fin 256), b' ≠ b ∨ j ≠ i → t.readBuf b' j = s.readBuf b' j) ∧
      { t with hb := s.hb, wb := s.wb, sb := s.sb } = s

/-- R33, R40: a buffer read returns the element and has no side effect; HB, WB and SB are the three buffers. The 32-bit entry
of `answers` is the model's (log entry 3). -/
def Obligations.BufferReadReturnsTheElement : Prop :=
  ∀ (s : State) (i : Fin 256),
    perform (.bufRead .hb i) s = .next { s with answers := s.answers ++ [s.hb[i].setWidth 32] } ∧
    perform (.bufRead .wb i) s = .next { s with answers := s.answers ++ [s.wb[i].setWidth 32] } ∧
    perform (.bufRead .sb i) s = .next { s with answers := s.answers ++ [s.sb[i].setWidth 32] }

/-- R30: the registers right after power-on. The buffers are unspecified: their elements are the free values of log entry 4,
and nothing is pending on the host's side (log entries 1 and 3): these clauses are the model's. -/
def Obligations.PowerOnState : Prop :=
  let s := State.reset
  s.chk = 1 ∧ s.cksum = 0 ∧ s.res = 0 ∧ s.err = 0 ∧ s.valid = false ∧ s.hlen = 0 ∧ s.wlen = 0 ∧ s.slen = 0 ∧
  (∀ i : Fin 256, s.hb[i] = Config.hbAtReset 0 i.val ∧ s.wb[i] = Config.wbAtReset 0 i.val ∧
    s.sb[i] = Config.sbAtReset 0 i.val) ∧
  s.script = [] ∧ s.answers = []

/-- R121: `Reset()` in any state puts every register at its reset value and leaves the buffers unspecified: free values not
used before in the run (log entry 4). What the host still has to do and has read stays (log entry 1). -/
def Obligations.ResetPrimitiveFromAnyState : Prop :=
  ∀ s : State, ∃ t, perform .reset s = .next t ∧
    t.chk = 1 ∧ t.cksum = 0 ∧ t.res = 0 ∧ t.err = 0 ∧ t.valid = false ∧ t.hlen = 0 ∧ t.wlen = 0 ∧ t.slen = 0 ∧
    (∀ i : Fin 256, t.hb[i] = Config.hbAtReset t.resets i.val ∧ t.wb[i] = Config.wbAtReset t.resets i.val ∧
      t.sb[i] = Config.sbAtReset t.resets i.val) ∧
    t.resets = s.resets + 1 ∧ t.script = s.script ∧ t.answers = s.answers

/-- R16, R39: when the host's next primitive is the write of a legal word to CMD, a step is the whole command, on the state
with the rest of the host's script left. The script is the model's (log entry 1). -/
def Obligations.StepRunsTheDecodedCommand : Prop :=
  ∀ (s : State) (w : CommandWord) (rest : List HostAction) (i : Instr),
    s.script = .regWrite 0 w :: rest → decodeCommand w = .ok i → step s = exec i { s with script := rest }

/-- R122: with no primitive left PCE does nothing on its own; that a step is then no change is the model's (log entry 2). -/
def Obligations.IdleStepChangesNothing : Prop :=
  ∀ s : State, s.script = [] → step s = .next s

/-- R39, R124: every primitive of the host terminates. Each step answers a next state whose script is the rest: it takes exactly
one primitive off a script that holds one, and an empty script stays empty. The script is the model's (log entry 1), the step
of an empty script too (log entry 2), and that no step faults or refuses is the model's reading of the spec (log entry 7). -/
def Obligations.EveryStepCompletesOnePrimitive : Prop :=
  ∀ s : State, ∃ t, step s = .next t ∧ t.script = s.script.tail

/-! ### Whole-machine rules (10_state.md, 60_exceptions.md) -/

/-- Every step keeps CHK and CKSUM below 2^30 and ERR at or below 10: R19 ([derived: from rule R30, 41_polymod.md rule R71,
...]), R20, R108. -/
def Obligations.StepKeepsThirtyBitsAndErrCodes : Prop :=
  ∀ s t : State, s.Inv → step s = .next t → t.Inv

/-- The power-on state meets the invariant of the statement above. -/
def Obligations.PowerOnMeetsTheBounds : Prop := State.reset.Inv

/-- The read and write table of R31 ([derived: from the command rules ...]): each command answers a next state in which
everything outside its row is as before. -/
def Obligations.CommandsWriteOnlyTheirRow : Prop :=
  ∀ (i : Instr) (s : State), ∃ t, exec i s = .next t ∧
    match i with
    | .pminit => { t with chk := s.chk, err := s.err } = s
    | .pmstep _ => { t with chk := s.chk, err := s.err } = s
    | .pmrun => { t with chk := s.chk, err := s.err } = s
    | .encch _ => { t with res := s.res, err := s.err } = s
    | .decch _ => { t with res := s.res, err := s.err } = s
    | .hrpx => { t with wlen := s.wlen, wb := s.wb, err := s.err } = s
    | .ckcreate => { t with chk := s.chk, cksum := s.cksum, err := s.err } = s
    | .ckverify => { t with chk := s.chk, valid := s.valid, err := s.err } = s
    | .encode => { t with chk := s.chk, cksum := s.cksum, slen := s.slen, sb := s.sb, err := s.err } = s
    | .decode =>
      { t with chk := s.chk, valid := s.valid, hlen := s.hlen, hb := s.hb, wlen := s.wlen, wb := s.wb, err := s.err } = s

/-- R110: ERR is not sticky. Every command, legal or illegal, goes to the same next state whatever ERR it finds, ERR included,
so it overwrites ERR; and reset clears it. -/
def Obligations.ErrIsNotSticky : Prop :=
  (∀ (w : CommandWord) (s : State) (e : BitVec 4),
    perform (.regWrite 0 w) { s with err := e } = perform (.regWrite 0 w) s) ∧
  (∀ s : State, ∃ t, perform .reset s = .next t ∧ t.err = 0)

/-- R108: the kinds each command can raise, by code; the commands R111 names as never failing always leave ERR = 0. -/
def Obligations.ErrCodesOfEachCommand : Prop :=
  ∀ (i : Instr) (s : State), ∃ t, exec i s = .next t ∧
    match i with
    | .hrpx => t.err = 0 ∨ t.err = 9
    | .encode => t.err = 0 ∨ t.err = 5 ∨ t.err = 7 ∨ t.err = 9
    | .decode => t.err.toNat ≤ 8
    | .pminit => t.err = 0
    | .pmstep _ => t.err = 0
    | .pmrun => t.err = 0
    | .encch _ => t.err = 0
    | .decch _ => t.err = 0
    | .ckcreate => t.err = 0
    | .ckverify => t.err = 0

/-- R111: what each failing case writes, and that it writes nothing else. -/
def Obligations.FailingCommandsWriteOnlyTheList : Prop :=
  ∀ s t : State,
    (∀ (w : CommandWord) (e : Illegal), decodeCommand w = .error e → RejectsWord w) ∧
    (exec .hrpx s = .next t → t.err ≠ 0 → t = { s with err := 9, wlen := 0 }) ∧
    (exec .encode s = .next t → t.err ≠ 0 → (t.err = 5 ∨ t.err = 7 ∨ t.err = 9) ∧ t = { s with err := t.err, slen := 0 }) ∧
    (exec .decode s = .next t → t.err ≠ 0 →
      (t.err.toNat ≤ 7 ∧ t = { s with err := t.err, valid := false, hlen := 0, wlen := 0 }) ∨
      (decodeString s.stringInput = .mismatch t.chk ∧ t.chk ≠ 1 ∧
        t = { s with err := 8, valid := false, hlen := 0, wlen := 0, chk := t.chk })) ∧
    (∀ i : Instr, i ≠ .hrpx → i ≠ .encode → i ≠ .decode → exec i s = .next t → t.err = 0)

/-- R12, R23: no command reads an element at or beyond its buffer's length. From two states with equal registers and equal
sequences, every command goes to two states with equal registers and equal sequences. -/
def Obligations.CommandsReadOnlyTheSequences : Prop :=
  ∀ (i : Instr) (s s' : State), SameSequences s s' →
    ∃ t t', exec i s = .next t ∧ exec i s' = .next t' ∧ SameSequences t t'

/-! ### Charset family (40_charset.md, 30_encoding.md) -/

/-- R55, R56, R57: DEC has the value `v` at exactly the code ENC has at `v`; 32 entries are values; each of the five GEN
constants is below 2^30. The codes are those the spec marks as general knowledge (93_implementation_defined.md G1). -/
def Obligations.RomTablesAgree : Prop :=
  (∀ (c : Fin 128) (v : DataWord), decRom[c] = v.setWidth 8 ↔ (encChar v).toNat = c.val) ∧
  ((List.finRange 128).countP fun c => decRom[c] != 0xFF) = 32 ∧
  (∀ i : Fin 5, genRom[i].toNat < 2 ^ 30)

/-- R66, R69: ENCCH `v` leaves in RES the code of the alphabet's character at `v`, with ERR 0 and nothing else changed; a word
with a non-zero `arg[7:5]` is illegal. The code of a character is its ASCII code (R10; 93_implementation_defined.md G1). -/
def Obligations.EncchLooksUpTheAlphabet : Prop :=
  (∀ v : DataWord, RunsWord (0x0400#16 ||| v.setWidth 16) (.encch v)) ∧
  (∀ arg : BitVec 8, 32 ≤ arg.toNat → RejectsWord (0x04#8 ++ arg)) ∧
  (∀ (v : DataWord) (s : State), ∃ r : BitVec 8, exec (.encch v) s = .next { s with res := r, err := 0 } ∧
    (['q', 'p', 'z', 'r', 'y', '9', 'x', '8', 'g', 'f', '2', 't', 'v', 'd', 'w', '0',
      's', '3', 'j', 'n', '5', '4', 'k', 'h', 'c', 'e', '6', 'm', 'u', 'a', '7', 'l'][v.toNat]?).map Char.toNat
      = some r.toNat)

/-- R67, R70: DECCH `c` leaves in RES the value whose alphabet character is `c` or, for an upper-case letter, `c + 32`, and 0xFF
if there is none, codes of 128 and above included; ERR is 0 either way and nothing else changes; every `arg` is legal. -/
def Obligations.DecchInvertsTheAlphabet : Prop :=
  (∀ c : Code, RunsWord (0x05#8 ++ c) (.decch c)) ∧
  (∀ (c : Code) (s : State), ∃ r : BitVec 8, exec (.decch c) s = .next { s with res := r, err := 0 } ∧
    let c' := if 65 ≤ c.toNat ∧ c.toNat ≤ 90 then c + 32#8 else c
    (∀ v : DataWord, r = v.setWidth 8 ↔ encChar v = c') ∧ (r = 0xFF#8 ↔ ∀ v : DataWord, encChar v ≠ c'))

/-- R68 ([derived: from rule R66, rule R67 and 30_encoding.md rules R55 and R56]): the two lookups invert each other up to
case; and R67's count of 55 codes with a value. -/
def Obligations.CharsetLookupsInvert : Prop :=
  (∀ v : DataWord, decChar (encChar v) = v.setWidth 8) ∧
  (∀ c : Code, decChar c ≠ 0xFF#8 → encChar ((decChar c).setWidth 5) = fold c) ∧
  ((List.range 256).countP fun n => decChar (BitVec.ofNat 8 n) != 0xFF#8) = 55

/-! ### Polymod family (41_polymod.md) -/

/-- R76: PMINIT sets CHK to 1 and ERR to 0 and changes nothing else; its word is 0x0100 and a non-zero `arg` is illegal. -/
def Obligations.PminitSetsChkToOne : Prop :=
  RunsWord 0x0100#16 .pminit ∧ (∀ arg : BitVec 8, arg ≠ 0 → RejectsWord (0x01#8 ++ arg)) ∧
  (∀ s : State, exec .pminit s = .next { s with chk := 0x00000001#32, err := 0 })

/-- R71, R77: PMSTEP `v` shifts bits 24:0 of CHK up by 5, puts `v` below them, and XORs in the constant of each set bit of
29:25; ERR is 0 and nothing else changes; a non-zero `arg[7:5]` is illegal. -/
def Obligations.PmstepAbsorbsTheWord : Prop :=
  (∀ v : DataWord, RunsWord (0x0200#16 ||| v.setWidth 16) (.pmstep v)) ∧
  (∀ arg : BitVec 8, 32 ≤ arg.toNat → RejectsWord (0x02#8 ++ arg)) ∧
  (∀ (v : DataWord) (s : State), exec (.pmstep v) s = .next { s with
    err := 0
    chk := (((s.chk &&& 0x01ffffff#32) <<< 5) ^^^ v.setWidth 32) ^^^
      (if s.chk.getLsbD 25 then 0x3b6a57b2#32 else 0) ^^^ (if s.chk.getLsbD 26 then 0x26508e6d#32 else 0) ^^^
      (if s.chk.getLsbD 27 then 0x1ea119fa#32 else 0) ^^^ (if s.chk.getLsbD 28 then 0x3d4233dd#32 else 0) ^^^
      (if s.chk.getLsbD 29 then 0x2a1462b3#32 else 0) })

/-- R72, R78: PMRUN leaves in CHK the fold of the step from 1 over `WB[0..WLEN)`, first element first; the old CHK is not used;
ERR is 0 and nothing else changes; a non-zero `arg` is illegal. -/
def Obligations.PmrunFoldsTheWordBuffer : Prop :=
  RunsWord 0x0300#16 .pmrun ∧ (∀ arg : BitVec 8, arg ≠ 0 → RejectsWord (0x03#8 ++ arg)) ∧
  (∀ (s : State) (ws : List DataWord), SequenceIs s.wb s.wlen ws →
    exec .pmrun s = .next { s with chk := ws.foldl pmStep 0x00000001#32, err := 0 })

/-- R74 ([derived: from rule R71 by splitting the 30 bits into cells]): the step as a shift register of six 5-bit cells with a
feedback selected by the bits of the top cell. -/
def Obligations.StepShiftsSixCells : Prop :=
  ∀ (chk : Accum) (v : DataWord), chk.toNat < 2 ^ 30 → ∀ k : Fin 6,
    let cell (a : Accum) (j : Nat) : DataWord := a.extractLsb' (5 * j) 5
    let f : DataWord := [0, 1, 2, 3, 4].foldl
      (fun (x : DataWord) (i : Fin 5) => if (cell chk 5).getLsbD i.val then x ^^^ cell genRom[i] k.val else x) 0
    cell (pmStep chk v) k.val = (if k.val = 0 then v else cell chk (k.val - 1)) ^^^ f

/-- R75 ([derived: every operation of rule R71 ... distributes over XOR]): the step is linear over XOR. -/
def Obligations.StepIsLinearOverXor : Prop :=
  (∀ (a b : Accum) (v w : DataWord), a.toNat < 2 ^ 30 → b.toNat < 2 ^ 30 →
    pmStep (a ^^^ b) (v ^^^ w) = pmStep a v ^^^ pmStep b w) ∧
  pmStep 0 0 = 0 ∧ (∀ v : DataWord, pmStep 0 v = v.setWidth 32) ∧
  (∀ (a : Accum) (v : DataWord), a.toNat < 2 ^ 30 → pmStep a v = pmStep a 0 ^^^ v.setWidth 32)

/-! ### HRP expansion family (42_hrp_expansion.md) -/

/-- R79, R81: HRPX with HLEN at most 127 writes into WB the high parts, a 0 and the low parts of the HRP's characters, sets WLEN
to 2*HLEN + 1 and ERR to 0, and changes nothing else, the elements of WB beyond included; with HLEN of 128 or more it sets ERR to
9 and WLEN to 0 and changes nothing else; a non-zero `arg` is illegal. -/
def Obligations.HrpxWritesTheExpansion : Prop :=
  RunsWord 0x0600#16 .hrpx ∧ (∀ arg : BitVec 8, arg ≠ 0 → RejectsWord (0x06#8 ++ arg)) ∧
  (∀ s : State, s.hlen.toNat ≤ 127 → ∃ t, exec .hrpx s = .next t ∧
    (∀ i : Fin 256, t.wb[i] =
      if i.val < s.hlen.toNat then (s.hb[i] >>> 5).setWidth 5
      else if i.val = s.hlen.toNat then 0
      else if i.val < 2 * s.hlen.toNat + 1 then
        ((s.hb[i.val - s.hlen.toNat - 1]'(by have := i.isLt; omega)) &&& 0x1f#8).setWidth 5
      else s.wb[i]) ∧
    t.wlen.toNat = 2 * s.hlen.toNat + 1 ∧ t.err = 0 ∧ { t with wb := s.wb, wlen := s.wlen, err := s.err } = s) ∧
  (∀ s : State, 128 ≤ s.hlen.toNat → exec .hrpx s = .next { s with wlen := 0, err := 9 })

/-! ### Checksum family (43_checksum.md, 30_encoding.md) -/

/-- R82, R85: CKCREATE leaves in CHK the polymod of the expanded HRP, the payload and six zeros, in CKSUM that value XOR 1, and 0
in ERR; nothing else changes; no HRP or length is refused; a non-zero `arg` is illegal. -/
def Obligations.CkcreateComputesTheChecksum : Prop :=
  RunsWord 0x0700#16 .ckcreate ∧ (∀ arg : BitVec 8, arg ≠ 0 → RejectsWord (0x07#8 ++ arg)) ∧
  (∀ (s : State) (hrp : List Code) (payload : List DataWord),
    SequenceIs s.hb s.hlen hrp → SequenceIs s.wb s.wlen payload →
    let p := (hrp.map (fun c : Code => (c >>> 5).setWidth 5) ++ [0#5] ++ hrp.map (fun c : Code => (c &&& 0x1f#8).setWidth 5) ++
      payload ++ [0#5, 0, 0, 0, 0, 0]).foldl pmStep 1#32
    exec .ckcreate s = .next { s with chk := p, cksum := p ^^^ 1#32, err := 0 })

/-- R83, R86: CKVERIFY leaves in CHK the polymod of the expanded HRP and the words, in VALID whether it is 1, and 0 in ERR either
way; nothing else changes; a non-zero `arg` is illegal and leaves VALID alone. -/
def Obligations.CkverifyChecksTheChecksum : Prop :=
  RunsWord 0x0800#16 .ckverify ∧ (∀ arg : BitVec 8, arg ≠ 0 → RejectsWord (0x08#8 ++ arg)) ∧
  (∀ (s : State) (hrp : List Code) (words : List DataWord),
    SequenceIs s.hb s.hlen hrp → SequenceIs s.wb s.wlen words →
    let p := (hrp.map (fun c : Code => (c >>> 5).setWidth 5) ++ [0#5] ++ hrp.map (fun c : Code => (c &&& 0x1f#8).setWidth 5) ++
      words).foldl pmStep 1#32
    exec .ckverify s = .next { s with chk := p, valid := decide (p = 1#32), err := 0 })

/-- R61: the six checksum words are the 5-bit fields of the 30-bit value, most significant first, so that
`mod = ck[0]*2^25 + ck[1]*2^20 + ck[2]*2^15 + ck[3]*2^10 + ck[4]*2^5 + ck[5]`. -/
def Obligations.ChecksumWordsAreTheFields : Prop :=
  ∀ mod : Accum, mod.toNat < 2 ^ 30 →
    (∀ i : Fin 6, (checksumWords mod)[i.val]? = some (((mod >>> (5 * (5 - i.val))) &&& 0x1f#32).setWidth 5)) ∧
    mod.toNat = (checksumWord mod 0).toNat * 2 ^ 25 + (checksumWord mod 1).toNat * 2 ^ 20 +
      (checksumWord mod 2).toNat * 2 ^ 15 + (checksumWord mod 3).toNat * 2 ^ 10 +
      (checksumWord mod 4).toNat * 2 ^ 5 + (checksumWord mod 5).toNat

/-- R84 ([derived: from rules R82 and R83 and 41_polymod.md rules R75 and R74]): a created checksum verifies, for every HRP and
payload. -/
def Obligations.CreatedChecksumVerifies : Prop :=
  ∀ (hrp : List Code) (payload : List DataWord),
    verifyChecksum hrp (payload ++ checksumWords (createChecksum hrp payload).2) = (1#32, true)

/-- R84, R85 ("the host appends the six fields of CKSUM to WB itself and issues CKVERIFY; rule R84 says VALID will be 1"): after
CKCREATE, CKVERIFY on the same HRP and the payload followed by the six fields of CKSUM sets VALID and leaves 1 in CHK. -/
def Obligations.CkverifyAcceptsWhatCkcreateMade : Prop :=
  ∀ s t u : State, exec .ckcreate s = .next t →
    u.hlen = s.hlen → (∀ k : Fin 256, k.val < s.hlen.toNat → u.hb[k] = s.hb[k]) →
    u.wlen.toNat = s.wlen.toNat + 6 → (∀ k : Fin 256, k.val < s.wlen.toNat → u.wb[k] = s.wb[k]) →
    (∀ k : Fin 256, s.wlen.toNat ≤ k.val → k.val < u.wlen.toNat → u.wb[k] = checksumWord t.cksum (k.val - s.wlen.toNat)) →
    exec .ckverify u = .next { u with chk := 1, valid := true, err := 0 }

/-! ### Encode family (44_encode.md) -/

/-- R87, R90, R91: ENCODE. With a non-empty printable HRP and HLEN + WLEN at most 248 it writes into SB the HRP as it stands, the
delimiter, the characters of the payload and of the six checksum words, sets SLEN, CHK and CKSUM, and changes nothing else, the
elements of SB beyond included. Otherwise it sets SLEN to 0 and ERR to the first failing check's code, and changes nothing else. -/
def Obligations.EncodeBuildsTheString : Prop :=
  RunsWord 0x0900#16 .encode ∧ (∀ arg : BitVec 8, arg ≠ 0 → RejectsWord (0x09#8 ++ arg)) ∧
  (∀ (s : State) (hrp : List Code) (payload : List DataWord),
    SequenceIs s.hb s.hlen hrp → SequenceIs s.wb s.wlen payload →
    1 ≤ s.hlen.toNat → s.HrpPrintable → s.hlen.toNat + s.wlen.toNat ≤ 248 →
    ∃ t, exec .encode s = .next t ∧
      t.chk = polymod (expandHrp hrp ++ payload ++ List.replicate 6 0#5) ∧ t.cksum = t.chk ^^^ 1#32 ∧
      (∀ i : Fin 256, t.sb[i] =
        if i.val < s.hlen.toNat then s.hb[i]
        else if i.val = s.hlen.toNat then 0x31#8
        else if i.val < s.hlen.toNat + 1 + s.wlen.toNat then
          encChar (s.wb[i.val - s.hlen.toNat - 1]'(by have := i.isLt; omega))
        else if i.val < s.hlen.toNat + s.wlen.toNat + 7 then
          encChar (checksumWord t.cksum (i.val - s.hlen.toNat - s.wlen.toNat - 1))
        else s.sb[i]) ∧
      t.slen.toNat = s.hlen.toNat + s.wlen.toNat + 7 ∧ t.err = 0 ∧
      { t with chk := s.chk, cksum := s.cksum, sb := s.sb, slen := s.slen, err := s.err } = s) ∧
  (∀ s : State, s.hlen = 0 → exec .encode s = .next { s with slen := 0, err := 5 }) ∧
  (∀ s : State, s.hlen ≠ 0 → ¬ s.HrpPrintable → exec .encode s = .next { s with slen := 0, err := 7 }) ∧
  (∀ s : State, s.hlen ≠ 0 → s.HrpPrintable → 248 < s.hlen.toNat + s.wlen.toNat →
    exec .encode s = .next { s with slen := 0, err := 9 })

/-- R92 ([derived: from rule R87, 30_encoding.md rule R55 and 40_charset.md rule R68]): after a successful ENCODE the last
delimiter of the string is at HLEN, and the data characters look up to the payload and to the fields of CKSUM. -/
def Obligations.EncodedStringReadsBack : Prop :=
  ∀ s t : State, exec .encode s = .next t → t.err = 0 →
    (∃ pos : Fin 256, pos.val = s.hlen.toNat ∧ t.DelimiterAt pos) ∧
    (∀ k : Fin 256, s.hlen.toNat < k.val → k.val < s.hlen.toNat + 1 + s.wlen.toNat →
      ∃ w : DataWord, s.wb[k.val - s.hlen.toNat - 1]? = some w ∧ decChar t.sb[k] = w.setWidth 8) ∧
    (∀ k : Fin 256, s.hlen.toNat + s.wlen.toNat < k.val → k.val < t.slen.toNat →
      decChar t.sb[k] = (checksumWord t.cksum (k.val - s.hlen.toNat - s.wlen.toNat - 1)).setWidth 8)

/-- R93 ([derived: from rule R92 and 45_decode.md rules R94 to R102]): DECODE undoes a successful ENCODE whose string is at most
90 long and whose HRP has no upper-case letter. From every state `u` that holds ENCODE's string in SB, whatever stands in HB, WB
and every other register, it puts back the HRP and the payload that ENCODE read, with their lengths, sets CHK to 1 and VALID,
and leaves the elements beyond and everything else as they are in `u`. -/
def Obligations.DecodeUndoesEncode : Prop :=
  ∀ s t u : State, exec .encode s = .next t → t.err = 0 → t.slen.toNat ≤ 90 →
    (∀ k : Fin 256, k.val < s.hlen.toNat → ¬ (65 ≤ s.hb[k].toNat ∧ s.hb[k].toNat ≤ 90)) →
    u.slen = t.slen → AgreeBelow t.slen t.sb u.sb →
    ∃ v, exec .decode u = .next v ∧
      v.hlen = s.hlen ∧ (∀ k : Fin 256, v.hb[k] = if k.val < s.hlen.toNat then s.hb[k] else u.hb[k]) ∧
      v.wlen = s.wlen ∧ (∀ k : Fin 256, v.wb[k] = if k.val < s.wlen.toNat then s.wb[k] else u.wb[k]) ∧
      v.chk = 1 ∧ v.valid = true ∧ v.err = 0 ∧
      { v with hb := u.hb, hlen := u.hlen, wb := u.wb, wlen := u.wlen, chk := u.chk, valid := u.valid, err := u.err } = u

/-! ### Decode family (45_decode.md) -/

/-- R94: a string longer than 90 is rejected with code 1, whatever it holds; a string of 90 or less is not. -/
def Obligations.DecodeRejectsLongStrings : Prop :=
  ∀ s : State,
    (90 < s.slen.toNat → exec .decode s = .next { s with err := 1, valid := false, hlen := 0, wlen := 0 }) ∧
    (s.slen.toNat ≤ 90 → ∃ t, exec .decode s = .next t ∧ t.err ≠ 1)

/-- R95: a string of at most 90 characters with a non-printable one is rejected with code 2, mixed case or not; with every
character printable and both cases present, with code 3; otherwise with neither code. -/
def Obligations.DecodeRejectsUnprintableThenMixedCase : Prop :=
  ∀ s : State, s.slen.toNat ≤ 90 →
    (¬ s.StringPrintable → exec .decode s = .next { s with err := 2, valid := false, hlen := 0, wlen := 0 }) ∧
    (s.StringPrintable → s.StringMixesCase → exec .decode s = .next { s with err := 3, valid := false, hlen := 0, wlen := 0 }) ∧
    (s.StringPrintable → ¬ s.StringMixesCase → ∃ t, exec .decode s = .next t ∧ t.err ≠ 2 ∧ t.err ≠ 3)

/-- R96: stages 1 and 2 passed, a string without the delimiter (the empty string included) is rejected with code 4; a string
with one is not. -/
def Obligations.DecodeRejectsMissingDelimiter : Prop :=
  ∀ s : State, s.slen.toNat ≤ 90 → s.StringPrintable → ¬ s.StringMixesCase →
    ((∀ k : Fin 256, k.val < s.slen.toNat → s.sb[k] ≠ 0x31#8) →
      exec .decode s = .next { s with err := 4, valid := false, hlen := 0, wlen := 0 }) ∧
    ((∃ k : Fin 256, k.val < s.slen.toNat ∧ s.sb[k] = 0x31#8) → ∃ t, exec .decode s = .next t ∧ t.err ≠ 4)

/-- R97, R98: stages 1 to 3 passed with the last delimiter at `pos`, an empty HRP is rejected with code 5, and a non-empty one
with `pos + 7 > SLEN` with code 6; otherwise with neither code. -/
def Obligations.DecodeRejectsEmptyHrpThenShortData : Prop :=
  ∀ (s : State) (pos : Fin 256), s.SplitsAt pos →
    (pos.val < 1 → exec .decode s = .next { s with err := 5, valid := false, hlen := 0, wlen := 0 }) ∧
    (1 ≤ pos.val → s.slen.toNat < pos.val + 7 →
      exec .decode s = .next { s with err := 6, valid := false, hlen := 0, wlen := 0 }) ∧
    (1 ≤ pos.val → pos.val + 7 ≤ s.slen.toNat → ∃ t, exec .decode s = .next t ∧ t.err ≠ 5 ∧ t.err ≠ 6)

/-- R99: stages 1 to 5 passed, a character after the delimiter that has no value is rejected with code 7; without such a
character the code is another. -/
def Obligations.DecodeRejectsBadDataCharacter : Prop :=
  ∀ (s : State) (pos : Fin 256), s.SplitsAt pos → 1 ≤ pos.val → pos.val + 7 ≤ s.slen.toNat →
    ((∃ k : Fin 256, pos.val < k.val ∧ k.val < s.slen.toNat ∧ decChar s.sb[k] = 0xFF#8) →
      exec .decode s = .next { s with err := 7, valid := false, hlen := 0, wlen := 0 }) ∧
    ((∀ k : Fin 256, pos.val < k.val → k.val < s.slen.toNat → decChar s.sb[k] ≠ 0xFF#8) →
      ∃ t, exec .decode s = .next t ∧ t.err ≠ 7)

/-- R100, R101: stages 1 to 7 passed, CHK receives the polymod of the lower-cased HRP's expansion and all the decoded words; if
it is not 1 the string is rejected with code 8, else with no code. -/
def Obligations.DecodeVerifiesTheChecksum : Prop :=
  ∀ (s : State) (pos : Fin 256) (hrp : List Code) (words : List DataWord), s.ReadsAs pos hrp words →
    let p := polymod (expandHrp hrp ++ words)
    (p ≠ 1#32 → exec .decode s = .next { s with err := 8, valid := false, hlen := 0, wlen := 0, chk := p }) ∧
    (p = 1#32 → ∃ t, exec .decode s = .next t ∧ t.chk = p ∧ t.err = 0)

/-- R102, R103: every stage passed, DECODE stores the lower-cased HRP and the payload without the six checksum words, with their
lengths, 1 in CHK, VALID set and ERR 0; the elements beyond and everything else are as before; a non-zero `arg` is illegal. -/
def Obligations.DecodeStoresHrpAndPayload : Prop :=
  RunsWord 0x0A00#16 .decode ∧ (∀ arg : BitVec 8, arg ≠ 0 → RejectsWord (0x0A#8 ++ arg)) ∧
  (∀ (s : State) (pos : Fin 256) (hrp : List Code) (words : List DataWord), s.ReadsAs pos hrp words →
    polymod (expandHrp hrp ++ words) = 1#32 →
    ∃ t, exec .decode s = .next t ∧
      (∀ i : Fin 256, some t.hb[i] = if i.val < pos.val then hrp[i.val]? else some s.hb[i]) ∧ t.hlen.toNat = pos.val ∧
      (∀ i : Fin 256, some t.wb[i] = if i.val < words.length - 6 then words[i.val]? else some s.wb[i]) ∧
      t.wlen.toNat = words.length - 6 ∧ t.chk = 1 ∧ t.valid = true ∧ t.err = 0 ∧
      { t with hb := s.hb, hlen := s.hlen, wb := s.wb, wlen := s.wlen, chk := s.chk, valid := s.valid, err := s.err } = s)

/-- R103, R125: every input of DECODE gives exactly one of success or one of eight kinds: VALID says which, and a failure leaves
both lengths 0. -/
def Obligations.DecodeSucceedsOrFailsWithOneKind : Prop :=
  ∀ s : State, ∃ t, exec .decode s = .next t ∧
    ((t.valid = true ∧ t.err = 0 ∧ t.chk = 1) ∨
     (t.valid = false ∧ 1 ≤ t.err.toNat ∧ t.err.toNat ≤ 8 ∧ t.hlen = 0 ∧ t.wlen = 0 ∧ t.hb = s.hb ∧ t.wb = s.wb))

/-- R104 ([derived: (a) from rule R95, (b) from rules R97 and R98, (c) from rule R101]): what holds of every string DECODE
accepts. The last delimiter is at HLEN; HB holds the folded characters before it; the WLEN characters after it have the values
in WB; and (c) is about the string's own checksum: `ck` is the values of its last six characters. -/
def Obligations.AcceptedStringsMeetTheInvariants : Prop :=
  ∀ s t : State, exec .decode s = .next t → t.err = 0 →
    ¬ s.StringMixesCase ∧ s.slen.toNat ≤ 90 ∧ 1 ≤ t.hlen.toNat ∧ t.hlen.toNat ≤ 83 ∧ t.wlen.toNat ≤ 82 ∧
    t.hlen.toNat + t.wlen.toNat + 7 = s.slen.toNat ∧ t.HrpPrintable ∧
    (∀ k : Fin 256, k.val < t.hlen.toNat → ¬ (65 ≤ t.hb[k].toNat ∧ t.hb[k].toNat ≤ 90)) ∧
    (∃ pos : Fin 256, pos.val = t.hlen.toNat ∧ s.DelimiterAt pos) ∧
    (∀ k : Fin 256, k.val < t.hlen.toNat → t.hb[k] = fold s.sb[k]) ∧
    (∀ k : Fin 256, k.val < t.wlen.toNat → (s.sb[t.hlen.toNat + 1 + k.val]?).map decChar = some (t.wb[k].setWidth 8)) ∧
    (∃ ck : Vector DataWord 6,
      (∀ i : Fin 6, (s.sb[s.slen.toNat - 6 + i.val]?).map decChar = some (ck[i].setWidth 8)) ∧
      polymod (expandHrp t.hrpInput ++ t.wordInput ++ ck.toList) = 1#32)

/-- R105 ([derived: from rules R94 to R102 and 40_charset.md rule R67]): DECODE gives the same outcome on a string without
upper-case letters and on the same string with every lower-case letter replaced by its upper-case form. -/
def Obligations.DecodeIgnoresUniformCase : Prop :=
  ∀ (s : State) (upper : Buf 8),
    (∀ k : Fin 256, k.val < s.slen.toNat → ¬ (65 ≤ s.sb[k].toNat ∧ s.sb[k].toNat ≤ 90)) →
    (∀ k : Fin 256, k.val < s.slen.toNat →
      upper[k] = if 97 ≤ s.sb[k].toNat ∧ s.sb[k].toNat ≤ 122 then s.sb[k] - 32#8 else s.sb[k]) →
    ∃ t, exec .decode s = .next t ∧ exec .decode { s with sb := upper } = .next { t with sb := upper }
end

