-- ==== Sys2Proof/Laws/State.lean ====
section
/-! SUPPORT. What each named update of the state does to each field, and the shared writes of ERR as such updates. -/

namespace Sys2Proof.Machine

variable (s : State)

@[simp] theorem State.setErr_err (e : BitVec 4) : (s.setErr e).err = e := rfl
@[simp] theorem State.setErr_valid (e : BitVec 4) : (s.setErr e).valid = s.valid := rfl
@[simp] theorem State.setErr_chk (e : BitVec 4) : (s.setErr e).chk = s.chk := rfl
@[simp] theorem State.setErr_cksum (e : BitVec 4) : (s.setErr e).cksum = s.cksum := rfl
@[simp] theorem State.setErr_res (e : BitVec 4) : (s.setErr e).res = s.res := rfl
@[simp] theorem State.setErr_hlen (e : BitVec 4) : (s.setErr e).hlen = s.hlen := rfl
@[simp] theorem State.setErr_wlen (e : BitVec 4) : (s.setErr e).wlen = s.wlen := rfl
@[simp] theorem State.setErr_slen (e : BitVec 4) : (s.setErr e).slen = s.slen := rfl
@[simp] theorem State.setErr_hb (e : BitVec 4) : (s.setErr e).hb = s.hb := rfl
@[simp] theorem State.setErr_wb (e : BitVec 4) : (s.setErr e).wb = s.wb := rfl
@[simp] theorem State.setErr_sb (e : BitVec 4) : (s.setErr e).sb = s.sb := rfl
@[simp] theorem State.setErr_script (e : BitVec 4) : (s.setErr e).script = s.script := rfl
@[simp] theorem State.setErr_answers (e : BitVec 4) : (s.setErr e).answers = s.answers := rfl
@[simp] theorem State.setErr_resets (e : BitVec 4) : (s.setErr e).resets = s.resets := rfl

@[simp] theorem State.setValid_err (e : Bool) : (s.setValid e).err = s.err := rfl
@[simp] theorem State.setValid_valid (e : Bool) : (s.setValid e).valid = e := rfl
@[simp] theorem State.setValid_chk (e : Bool) : (s.setValid e).chk = s.chk := rfl
@[simp] theorem State.setValid_cksum (e : Bool) : (s.setValid e).cksum = s.cksum := rfl
@[simp] theorem State.setValid_res (e : Bool) : (s.setValid e).res = s.res := rfl
@[simp] theorem State.setValid_hlen (e : Bool) : (s.setValid e).hlen = s.hlen := rfl
@[simp] theorem State.setValid_wlen (e : Bool) : (s.setValid e).wlen = s.wlen := rfl
@[simp] theorem State.setValid_slen (e : Bool) : (s.setValid e).slen = s.slen := rfl
@[simp] theorem State.setValid_hb (e : Bool) : (s.setValid e).hb = s.hb := rfl
@[simp] theorem State.setValid_wb (e : Bool) : (s.setValid e).wb = s.wb := rfl
@[simp] theorem State.setValid_sb (e : Bool) : (s.setValid e).sb = s.sb := rfl
@[simp] theorem State.setValid_script (e : Bool) : (s.setValid e).script = s.script := rfl
@[simp] theorem State.setValid_answers (e : Bool) : (s.setValid e).answers = s.answers := rfl
@[simp] theorem State.setValid_resets (e : Bool) : (s.setValid e).resets = s.resets := rfl

@[simp] theorem State.setChk_err (e : Accum) : (s.setChk e).err = s.err := rfl
@[simp] theorem State.setChk_valid (e : Accum) : (s.setChk e).valid = s.valid := rfl
@[simp] theorem State.setChk_chk (e : Accum) : (s.setChk e).chk = e := rfl
@[simp] theorem State.setChk_cksum (e : Accum) : (s.setChk e).cksum = s.cksum := rfl
@[simp] theorem State.setChk_res (e : Accum) : (s.setChk e).res = s.res := rfl
@[simp] theorem State.setChk_hlen (e : Accum) : (s.setChk e).hlen = s.hlen := rfl
@[simp] theorem State.setChk_wlen (e : Accum) : (s.setChk e).wlen = s.wlen := rfl
@[simp] theorem State.setChk_slen (e : Accum) : (s.setChk e).slen = s.slen := rfl
@[simp] theorem State.setChk_hb (e : Accum) : (s.setChk e).hb = s.hb := rfl
@[simp] theorem State.setChk_wb (e : Accum) : (s.setChk e).wb = s.wb := rfl
@[simp] theorem State.setChk_sb (e : Accum) : (s.setChk e).sb = s.sb := rfl
@[simp] theorem State.setChk_script (e : Accum) : (s.setChk e).script = s.script := rfl
@[simp] theorem State.setChk_answers (e : Accum) : (s.setChk e).answers = s.answers := rfl
@[simp] theorem State.setChk_resets (e : Accum) : (s.setChk e).resets = s.resets := rfl

@[simp] theorem State.setCksum_err (e : Accum) : (s.setCksum e).err = s.err := rfl
@[simp] theorem State.setCksum_valid (e : Accum) : (s.setCksum e).valid = s.valid := rfl
@[simp] theorem State.setCksum_chk (e : Accum) : (s.setCksum e).chk = s.chk := rfl
@[simp] theorem State.setCksum_cksum (e : Accum) : (s.setCksum e).cksum = e := rfl
@[simp] theorem State.setCksum_res (e : Accum) : (s.setCksum e).res = s.res := rfl
@[simp] theorem State.setCksum_hlen (e : Accum) : (s.setCksum e).hlen = s.hlen := rfl
@[simp] theorem State.setCksum_wlen (e : Accum) : (s.setCksum e).wlen = s.wlen := rfl
@[simp] theorem State.setCksum_slen (e : Accum) : (s.setCksum e).slen = s.slen := rfl
@[simp] theorem State.setCksum_hb (e : Accum) : (s.setCksum e).hb = s.hb := rfl
@[simp] theorem State.setCksum_wb (e : Accum) : (s.setCksum e).wb = s.wb := rfl
@[simp] theorem State.setCksum_sb (e : Accum) : (s.setCksum e).sb = s.sb := rfl
@[simp] theorem State.setCksum_script (e : Accum) : (s.setCksum e).script = s.script := rfl
@[simp] theorem State.setCksum_answers (e : Accum) : (s.setCksum e).answers = s.answers := rfl
@[simp] theorem State.setCksum_resets (e : Accum) : (s.setCksum e).resets = s.resets := rfl

@[simp] theorem State.setRes_err (e : BitVec 8) : (s.setRes e).err = s.err := rfl
@[simp] theorem State.setRes_valid (e : BitVec 8) : (s.setRes e).valid = s.valid := rfl
@[simp] theorem State.setRes_chk (e : BitVec 8) : (s.setRes e).chk = s.chk := rfl
@[simp] theorem State.setRes_cksum (e : BitVec 8) : (s.setRes e).cksum = s.cksum := rfl
@[simp] theorem State.setRes_res (e : BitVec 8) : (s.setRes e).res = e := rfl
@[simp] theorem State.setRes_hlen (e : BitVec 8) : (s.setRes e).hlen = s.hlen := rfl
@[simp] theorem State.setRes_wlen (e : BitVec 8) : (s.setRes e).wlen = s.wlen := rfl
@[simp] theorem State.setRes_slen (e : BitVec 8) : (s.setRes e).slen = s.slen := rfl
@[simp] theorem State.setRes_hb (e : BitVec 8) : (s.setRes e).hb = s.hb := rfl
@[simp] theorem State.setRes_wb (e : BitVec 8) : (s.setRes e).wb = s.wb := rfl
@[simp] theorem State.setRes_sb (e : BitVec 8) : (s.setRes e).sb = s.sb := rfl
@[simp] theorem State.setRes_script (e : BitVec 8) : (s.setRes e).script = s.script := rfl
@[simp] theorem State.setRes_answers (e : BitVec 8) : (s.setRes e).answers = s.answers := rfl
@[simp] theorem State.setRes_resets (e : BitVec 8) : (s.setRes e).resets = s.resets := rfl

@[simp] theorem State.setHlen_err (e : BitVec 8) : (s.setHlen e).err = s.err := rfl
@[simp] theorem State.setHlen_valid (e : BitVec 8) : (s.setHlen e).valid = s.valid := rfl
@[simp] theorem State.setHlen_chk (e : BitVec 8) : (s.setHlen e).chk = s.chk := rfl
@[simp] theorem State.setHlen_cksum (e : BitVec 8) : (s.setHlen e).cksum = s.cksum := rfl
@[simp] theorem State.setHlen_res (e : BitVec 8) : (s.setHlen e).res = s.res := rfl
@[simp] theorem State.setHlen_hlen (e : BitVec 8) : (s.setHlen e).hlen = e := rfl
@[simp] theorem State.setHlen_wlen (e : BitVec 8) : (s.setHlen e).wlen = s.wlen := rfl
@[simp] theorem State.setHlen_slen (e : BitVec 8) : (s.setHlen e).slen = s.slen := rfl
@[simp] theorem State.setHlen_hb (e : BitVec 8) : (s.setHlen e).hb = s.hb := rfl
@[simp] theorem State.setHlen_wb (e : BitVec 8) : (s.setHlen e).wb = s.wb := rfl
@[simp] theorem State.setHlen_sb (e : BitVec 8) : (s.setHlen e).sb = s.sb := rfl
@[simp] theorem State.setHlen_script (e : BitVec 8) : (s.setHlen e).script = s.script := rfl
@[simp] theorem State.setHlen_answers (e : BitVec 8) : (s.setHlen e).answers = s.answers := rfl
@[simp] theorem State.setHlen_resets (e : BitVec 8) : (s.setHlen e).resets = s.resets := rfl

@[simp] theorem State.setWlen_err (e : BitVec 8) : (s.setWlen e).err = s.err := rfl
@[simp] theorem State.setWlen_valid (e : BitVec 8) : (s.setWlen e).valid = s.valid := rfl
@[simp] theorem State.setWlen_chk (e : BitVec 8) : (s.setWlen e).chk = s.chk := rfl
@[simp] theorem State.setWlen_cksum (e : BitVec 8) : (s.setWlen e).cksum = s.cksum := rfl
@[simp] theorem State.setWlen_res (e : BitVec 8) : (s.setWlen e).res = s.res := rfl
@[simp] theorem State.setWlen_hlen (e : BitVec 8) : (s.setWlen e).hlen = s.hlen := rfl
@[simp] theorem State.setWlen_wlen (e : BitVec 8) : (s.setWlen e).wlen = e := rfl
@[simp] theorem State.setWlen_slen (e : BitVec 8) : (s.setWlen e).slen = s.slen := rfl
@[simp] theorem State.setWlen_hb (e : BitVec 8) : (s.setWlen e).hb = s.hb := rfl
@[simp] theorem State.setWlen_wb (e : BitVec 8) : (s.setWlen e).wb = s.wb := rfl
@[simp] theorem State.setWlen_sb (e : BitVec 8) : (s.setWlen e).sb = s.sb := rfl
@[simp] theorem State.setWlen_script (e : BitVec 8) : (s.setWlen e).script = s.script := rfl
@[simp] theorem State.setWlen_answers (e : BitVec 8) : (s.setWlen e).answers = s.answers := rfl
@[simp] theorem State.setWlen_resets (e : BitVec 8) : (s.setWlen e).resets = s.resets := rfl

@[simp] theorem State.setSlen_err (e : BitVec 8) : (s.setSlen e).err = s.err := rfl
@[simp] theorem State.setSlen_valid (e : BitVec 8) : (s.setSlen e).valid = s.valid := rfl
@[simp] theorem State.setSlen_chk (e : BitVec 8) : (s.setSlen e).chk = s.chk := rfl
@[simp] theorem State.setSlen_cksum (e : BitVec 8) : (s.setSlen e).cksum = s.cksum := rfl
@[simp] theorem State.setSlen_res (e : BitVec 8) : (s.setSlen e).res = s.res := rfl
@[simp] theorem State.setSlen_hlen (e : BitVec 8) : (s.setSlen e).hlen = s.hlen := rfl
@[simp] theorem State.setSlen_wlen (e : BitVec 8) : (s.setSlen e).wlen = s.wlen := rfl
@[simp] theorem State.setSlen_slen (e : BitVec 8) : (s.setSlen e).slen = e := rfl
@[simp] theorem State.setSlen_hb (e : BitVec 8) : (s.setSlen e).hb = s.hb := rfl
@[simp] theorem State.setSlen_wb (e : BitVec 8) : (s.setSlen e).wb = s.wb := rfl
@[simp] theorem State.setSlen_sb (e : BitVec 8) : (s.setSlen e).sb = s.sb := rfl
@[simp] theorem State.setSlen_script (e : BitVec 8) : (s.setSlen e).script = s.script := rfl
@[simp] theorem State.setSlen_answers (e : BitVec 8) : (s.setSlen e).answers = s.answers := rfl
@[simp] theorem State.setSlen_resets (e : BitVec 8) : (s.setSlen e).resets = s.resets := rfl

@[simp] theorem State.setHb_err (e : Buf 8) : (s.setHb e).err = s.err := rfl
@[simp] theorem State.setHb_valid (e : Buf 8) : (s.setHb e).valid = s.valid := rfl
@[simp] theorem State.setHb_chk (e : Buf 8) : (s.setHb e).chk = s.chk := rfl
@[simp] theorem State.setHb_cksum (e : Buf 8) : (s.setHb e).cksum = s.cksum := rfl
@[simp] theorem State.setHb_res (e : Buf 8) : (s.setHb e).res = s.res := rfl
@[simp] theorem State.setHb_hlen (e : Buf 8) : (s.setHb e).hlen = s.hlen := rfl
@[simp] theorem State.setHb_wlen (e : Buf 8) : (s.setHb e).wlen = s.wlen := rfl
@[simp] theorem State.setHb_slen (e : Buf 8) : (s.setHb e).slen = s.slen := rfl
@[simp] theorem State.setHb_hb (e : Buf 8) : (s.setHb e).hb = e := rfl
@[simp] theorem State.setHb_wb (e : Buf 8) : (s.setHb e).wb = s.wb := rfl
@[simp] theorem State.setHb_sb (e : Buf 8) : (s.setHb e).sb = s.sb := rfl
@[simp] theorem State.setHb_script (e : Buf 8) : (s.setHb e).script = s.script := rfl
@[simp] theorem State.setHb_answers (e : Buf 8) : (s.setHb e).answers = s.answers := rfl
@[simp] theorem State.setHb_resets (e : Buf 8) : (s.setHb e).resets = s.resets := rfl

@[simp] theorem State.setWb_err (e : Buf 5) : (s.setWb e).err = s.err := rfl
@[simp] theorem State.setWb_valid (e : Buf 5) : (s.setWb e).valid = s.valid := rfl
@[simp] theorem State.setWb_chk (e : Buf 5) : (s.setWb e).chk = s.chk := rfl
@[simp] theorem State.setWb_cksum (e : Buf 5) : (s.setWb e).cksum = s.cksum := rfl
@[simp] theorem State.setWb_res (e : Buf 5) : (s.setWb e).res = s.res := rfl
@[simp] theorem State.setWb_hlen (e : Buf 5) : (s.setWb e).hlen = s.hlen := rfl
@[simp] theorem State.setWb_wlen (e : Buf 5) : (s.setWb e).wlen = s.wlen := rfl
@[simp] theorem State.setWb_slen (e : Buf 5) : (s.setWb e).slen = s.slen := rfl
@[simp] theorem State.setWb_hb (e : Buf 5) : (s.setWb e).hb = s.hb := rfl
@[simp] theorem State.setWb_wb (e : Buf 5) : (s.setWb e).wb = e := rfl
@[simp] theorem State.setWb_sb (e : Buf 5) : (s.setWb e).sb = s.sb := rfl
@[simp] theorem State.setWb_script (e : Buf 5) : (s.setWb e).script = s.script := rfl
@[simp] theorem State.setWb_answers (e : Buf 5) : (s.setWb e).answers = s.answers := rfl
@[simp] theorem State.setWb_resets (e : Buf 5) : (s.setWb e).resets = s.resets := rfl

@[simp] theorem State.setSb_err (e : Buf 8) : (s.setSb e).err = s.err := rfl
@[simp] theorem State.setSb_valid (e : Buf 8) : (s.setSb e).valid = s.valid := rfl
@[simp] theorem State.setSb_chk (e : Buf 8) : (s.setSb e).chk = s.chk := rfl
@[simp] theorem State.setSb_cksum (e : Buf 8) : (s.setSb e).cksum = s.cksum := rfl
@[simp] theorem State.setSb_res (e : Buf 8) : (s.setSb e).res = s.res := rfl
@[simp] theorem State.setSb_hlen (e : Buf 8) : (s.setSb e).hlen = s.hlen := rfl
@[simp] theorem State.setSb_wlen (e : Buf 8) : (s.setSb e).wlen = s.wlen := rfl
@[simp] theorem State.setSb_slen (e : Buf 8) : (s.setSb e).slen = s.slen := rfl
@[simp] theorem State.setSb_hb (e : Buf 8) : (s.setSb e).hb = s.hb := rfl
@[simp] theorem State.setSb_wb (e : Buf 8) : (s.setSb e).wb = s.wb := rfl
@[simp] theorem State.setSb_sb (e : Buf 8) : (s.setSb e).sb = e := rfl
@[simp] theorem State.setSb_script (e : Buf 8) : (s.setSb e).script = s.script := rfl
@[simp] theorem State.setSb_answers (e : Buf 8) : (s.setSb e).answers = s.answers := rfl
@[simp] theorem State.setSb_resets (e : Buf 8) : (s.setSb e).resets = s.resets := rfl

@[simp] theorem State.setScript_err (e : List HostAction) : (s.setScript e).err = s.err := rfl
@[simp] theorem State.setScript_valid (e : List HostAction) : (s.setScript e).valid = s.valid := rfl
@[simp] theorem State.setScript_chk (e : List HostAction) : (s.setScript e).chk = s.chk := rfl
@[simp] theorem State.setScript_cksum (e : List HostAction) : (s.setScript e).cksum = s.cksum := rfl
@[simp] theorem State.setScript_res (e : List HostAction) : (s.setScript e).res = s.res := rfl
@[simp] theorem State.setScript_hlen (e : List HostAction) : (s.setScript e).hlen = s.hlen := rfl
@[simp] theorem State.setScript_wlen (e : List HostAction) : (s.setScript e).wlen = s.wlen := rfl
@[simp] theorem State.setScript_slen (e : List HostAction) : (s.setScript e).slen = s.slen := rfl
@[simp] theorem State.setScript_hb (e : List HostAction) : (s.setScript e).hb = s.hb := rfl
@[simp] theorem State.setScript_wb (e : List HostAction) : (s.setScript e).wb = s.wb := rfl
@[simp] theorem State.setScript_sb (e : List HostAction) : (s.setScript e).sb = s.sb := rfl
@[simp] theorem State.setScript_script (e : List HostAction) : (s.setScript e).script = e := rfl
@[simp] theorem State.setScript_answers (e : List HostAction) : (s.setScript e).answers = s.answers := rfl
@[simp] theorem State.setScript_resets (e : List HostAction) : (s.setScript e).resets = s.resets := rfl

@[simp] theorem State.setAnswers_err (e : List (BitVec 32)) : (s.setAnswers e).err = s.err := rfl
@[simp] theorem State.setAnswers_valid (e : List (BitVec 32)) : (s.setAnswers e).valid = s.valid := rfl
@[simp] theorem State.setAnswers_chk (e : List (BitVec 32)) : (s.setAnswers e).chk = s.chk := rfl
@[simp] theorem State.setAnswers_cksum (e : List (BitVec 32)) : (s.setAnswers e).cksum = s.cksum := rfl
@[simp] theorem State.setAnswers_res (e : List (BitVec 32)) : (s.setAnswers e).res = s.res := rfl
@[simp] theorem State.setAnswers_hlen (e : List (BitVec 32)) : (s.setAnswers e).hlen = s.hlen := rfl
@[simp] theorem State.setAnswers_wlen (e : List (BitVec 32)) : (s.setAnswers e).wlen = s.wlen := rfl
@[simp] theorem State.setAnswers_slen (e : List (BitVec 32)) : (s.setAnswers e).slen = s.slen := rfl
@[simp] theorem State.setAnswers_hb (e : List (BitVec 32)) : (s.setAnswers e).hb = s.hb := rfl
@[simp] theorem State.setAnswers_wb (e : List (BitVec 32)) : (s.setAnswers e).wb = s.wb := rfl
@[simp] theorem State.setAnswers_sb (e : List (BitVec 32)) : (s.setAnswers e).sb = s.sb := rfl
@[simp] theorem State.setAnswers_script (e : List (BitVec 32)) : (s.setAnswers e).script = s.script := rfl
@[simp] theorem State.setAnswers_answers (e : List (BitVec 32)) : (s.setAnswers e).answers = e := rfl
@[simp] theorem State.setAnswers_resets (e : List (BitVec 32)) : (s.setAnswers e).resets = s.resets := rfl

@[simp] theorem State.complete_eq : s.complete = s.setErr 0 := rfl
@[simp] theorem State.raise_eq (k : ErrorKind) : s.raise k = s.setErr (errorCode k) := rfl
@[simp] theorem State.answer_eq (v : BitVec 32) : s.answer v = s.setAnswers (s.answers ++ [v]) := rfl

end Sys2Proof.Machine
end

