-- ==== Sys2Proof/Laws/Ops.lean ====
section
/-! SUPPORT. What the buffer operations do, element by element, and the lengths of the commands' input sequences. -/

namespace Sys2Proof

/-- Element `i` of a tabulated buffer. -/
@[simp] theorem Buf.tabulate_getElem {w : Nat} (f : Nat → BitVec w) (i : Nat) (h : i < 256) :
    (Buf.tabulate f)[i] = f i := by
  simp [Buf.tabulate]

end Sys2Proof

namespace Sys2Proof.Machine

variable {w : Nat}

/-- Two buffers with equal elements are equal. -/
theorem buf_ext {b b' : Buf w} (h : ∀ i : Fin 256, b[i] = b'[i]) : b = b' :=
  Vector.ext fun i hi => h ⟨i, hi⟩

@[simp] theorem loadBuf_length (b : Buf w) (n : Nat) : (loadBuf b n).length = min n 256 := by
  simp [loadBuf]

/-- Element `k` of the sequence `B[0..n)`. -/
@[simp] theorem loadBuf_getElem (b : Buf w) (n k : Nat) (h : k < (loadBuf b n).length) :
    (loadBuf b n)[k] = b[k]'(by simp at h; omega) := by
  simp [loadBuf]

/-- The sequence `B[0..n)` is any list of that length with those elements. -/
theorem loadBuf_eq {b : Buf w} {n : Nat} {xs : List (BitVec w)} (hn : n ≤ 256) (hl : xs.length = n)
    (h : ∀ k : Fin 256, k.val < n → xs[k.val]? = some b[k]) : loadBuf b n = xs := by
  apply List.ext_getElem
  · simp; omega
  · intro i h₁ h₂
    have := h ⟨i, by omega⟩ (by simp; omega)
    simp only [List.getElem?_eq_getElem h₂, Option.some.injEq] at this
    simpa using this.symm

/-- Element `i` after a store: the sequence's where it reaches, else the old one. -/
theorem storeBuf_getElem (b : Buf w) (xs : List (BitVec w)) (i : Nat) (h : i < 256) :
    (storeBuf b xs)[i] = if hi : i < xs.length then xs[i] else b[i] := by
  simp only [storeBuf, Vector.getElem_mk, List.getElem_toArray, List.getElem_take]
  split
  · next hi => simp [List.getElem_append_left hi]
  · next hi =>
    rw [List.getElem_append_right (by omega)]
    simp [show xs.length + (i - xs.length) = i by omega]

/-- Reading back a stored sequence. -/
@[simp] theorem loadBuf_storeBuf (b : Buf w) (xs : List (BitVec w)) (h : xs.length ≤ 256) :
    loadBuf (storeBuf b xs) xs.length = xs := by
  apply List.ext_getElem
  · simp; omega
  · intro i h₁ h₂
    simp [storeBuf_getElem, h₂]

/-- Storing what is there changes nothing. -/
@[simp] theorem storeBuf_loadBuf (b : Buf w) (n : Nat) : storeBuf b (loadBuf b n) = b := by
  apply buf_ext
  intro i
  rw [Fin.getElem_fin, storeBuf_getElem]
  split <;> simp

@[simp] theorem lengthReg_toNat {n : Nat} (h : n ≤ 255) : (lengthReg n).toNat = n := by
  simp [lengthReg]; omega

@[simp] theorem hrpInput_length (s : State) : s.hrpInput.length = s.hlen.toNat := by
  have := s.hlen.isLt
  simp [State.hrpInput]; omega

@[simp] theorem wordInput_length (s : State) : s.wordInput.length = s.wlen.toNat := by
  have := s.wlen.isLt
  simp [State.wordInput]; omega

@[simp] theorem stringInput_length (s : State) : s.stringInput.length = s.slen.toNat := by
  have := s.slen.isLt
  simp [State.stringInput]; omega

/-- Element `k` of the HRP. -/
theorem hrpInput_getElem (s : State) (k : Nat) (h : k < s.hrpInput.length) :
    s.hrpInput[k] = s.hb[k]'(by have := s.hlen.isLt; simp at h; omega) := by
  simp [State.hrpInput]

/-- Element `k` of the word sequence. -/
theorem wordInput_getElem (s : State) (k : Nat) (h : k < s.wordInput.length) :
    s.wordInput[k] = s.wb[k]'(by have := s.wlen.isLt; simp at h; omega) := by
  simp [State.wordInput]

/-- Element `k` of the string. -/
theorem stringInput_getElem (s : State) (k : Nat) (h : k < s.stringInput.length) :
    s.stringInput[k] = s.sb[k]'(by have := s.slen.isLt; simp at h; omega) := by
  simp [State.stringInput]

/-- ERR after a raise is one of 1..10. -/
theorem errorCode_range (k : ErrorKind) : 1 ≤ (errorCode k).toNat ∧ (errorCode k).toNat ≤ 10 := by
  cases k <;> decide

/-- Different kinds have different codes (R108). -/
theorem errorCode_injective {k k' : ErrorKind} (h : errorCode k = errorCode k') : k = k' := by
  cases k <;> cases k' <;> first | rfl | exact absurd h (by decide)

end Sys2Proof.Machine
end

