-- ==== Sys2Proof/Laws/Codec.lean ====
section
/-! SUPPORT. One lemma per function of the codec that says once everything the function can give: the character predicates,
the polymod, the expansion, the checksum words, the stages of DECODE and the checks of ENCODE. -/

namespace Sys2Proof.Machine

/-! The charset -/

theorem isPrintable_iff {c : Code} : isPrintable c = true ↔ 33 ≤ c.toNat ∧ c.toNat ≤ 126 := by
  simp [isPrintable]

theorem isLower_iff {c : Code} : isLower c = true ↔ 97 ≤ c.toNat ∧ c.toNat ≤ 122 := by
  simp [isLower]

theorem isUpper_iff {c : Code} : isUpper c = true ↔ 65 ≤ c.toNat ∧ c.toNat ≤ 90 := by
  simp [isUpper]

/-- A code that is not an upper-case letter is not changed by `fold`. -/
theorem fold_eq_self {c : Code} (h : isUpper c = false) : fold c = c := by
  simp [fold, h]

/-- A folded code is no upper-case letter. -/
theorem isUpper_fold (c : Code) : isUpper (fold c) = false := by
  revert c; decide

@[simp] theorem lowercase_length (cs : List Code) : (lowercase cs).length = cs.length := by
  simp [lowercase]

/-- `lowercase` keeps a string without upper-case letters. -/
theorem lowercase_eq_self {cs : List Code} (h : ∀ c ∈ cs, isUpper c = false) : lowercase cs = cs := by
  simp only [lowercase]
  conv_rhs => rw [← List.map_id cs]
  exact List.map_congr_left fun c hc => fold_eq_self (h c hc)

/-- Every alphabet character is printable, no upper-case letter and not the delimiter. -/
theorem encChar_spec (v : DataWord) :
    isPrintable (encChar v) = true ∧ isUpper (encChar v) = false ∧ encChar v ≠ delimiter := by
  revert v; decide

/-! The polymod -/

@[simp] theorem polymod_nil : polymod [] = chkInit := rfl

/-- The polymod is a left fold: it continues over an appended sequence. -/
theorem polymod_append (a b : List DataWord) : polymod (a ++ b) = b.foldl pmStep (polymod a) := by
  simp [polymod]

/-- XOR keeps a value below 2^30. -/
theorem xor_lt_two_pow_30 {a b : Accum} (ha : a.toNat < 2 ^ 30) (hb : b.toNat < 2 ^ 30) : (a ^^^ b).toNat < 2 ^ 30 := by
  rw [BitVec.toNat_xor]
  exact Nat.xor_lt_two_pow ha hb

/-- Every generator constant has 30 significant bits. -/
theorem genRom_lt (i : Fin 5) : (genRom[i]).toNat < 2 ^ 30 := by
  revert i; decide

/-- One round of feedback keeps the accumulator below 2^30. -/
theorem feedback_lt {top c : Accum} (i : Fin 5) (h : c.toNat < 2 ^ 30) : (feedback top c i).toNat < 2 ^ 30 := by
  unfold feedback
  split
  · exact xor_lt_two_pow_30 h (genRom_lt i)
  · exact h

/-- The step gives a value below 2^30 from any accumulator. -/
theorem pmStep_lt (c : Accum) (v : DataWord) : (pmStep c v).toNat < 2 ^ 30 := by
  have h₀ : (((c &&& 0x01ffffff#32) <<< 5) ^^^ v.setWidth 32 : Accum).toNat < 2 ^ 30 := by
    refine xor_lt_two_pow_30 ?_ ?_
    · have h : (c &&& 0x01ffffff#32).toNat ≤ 0x01ffffff := by
        rw [BitVec.toNat_and]; exact Nat.and_le_right
      rw [BitVec.toNat_shiftLeft, Nat.shiftLeft_eq]
      exact lt_of_le_of_lt (Nat.mod_le _ _) (by omega)
    · have := v.isLt
      simp only [BitVec.toNat_setWidth]
      omega
  simp only [pmStep, List.foldl_cons, List.foldl_nil]
  exact feedback_lt _ (feedback_lt _ (feedback_lt _ (feedback_lt _ (feedback_lt _ h₀))))

/-- A fold of steps from a value below 2^30 stays there. -/
theorem foldl_pmStep_lt (ws : List DataWord) {c : Accum} (h : c.toNat < 2 ^ 30) : (ws.foldl pmStep c).toNat < 2 ^ 30 := by
  induction ws generalizing c with
  | nil => exact h
  | cons w ws ih => exact ih (pmStep_lt c w)

theorem polymod_lt (ws : List DataWord) : (polymod ws).toNat < 2 ^ 30 :=
  foldl_pmStep_lt ws (by decide)

/-! The expansion and the checksum -/

@[simp] theorem expandHrp_length (hrp : List Code) : (expandHrp hrp).length = 2 * hrp.length + 1 := by
  simp [expandHrp]; omega

@[simp] theorem checksumWords_length (mod : Accum) : (checksumWords mod).length = 6 := rfl

@[simp] theorem combinedString_length (hrp : List Code) (payload : List DataWord) (mod : Accum) :
    (combinedString hrp payload mod).length = hrp.length + payload.length + 7 := by
  simp [combinedString]; omega

@[simp] theorem encodeString_length (hrp : List Code) (payload : List DataWord) :
    (encodeString hrp payload).length = hrp.length + payload.length + 7 := by
  simp [encodeString]

/-! The checks of ENCODE -/

/-- ENCODE's checks all pass exactly for a non-empty, printable HRP whose string fits. -/
theorem encodeCheck_eq_none_iff {hrp : List Code} {payload : List DataWord} :
    encodeCheck hrp payload = none ↔
      hrp.length ≠ 0 ∧ (∀ c ∈ hrp, isPrintable c = true) ∧ hrp.length + payload.length ≤ 248 := by
  unfold encodeCheck maxCapacity
  split
  · simp_all
  · split
    · next h => simp only [List.any_eq_true] at h; obtain ⟨c, hc, hp⟩ := h; simp; intro _ h; simp [h c hc] at hp
    · next h =>
      have hp : ∀ c ∈ hrp, isPrintable c = true := by simpa using h
      split <;> simp_all <;> omega

/-- The kind of a failing check of ENCODE, and its condition. -/
theorem encodeCheck_eq_some {hrp : List Code} {payload : List DataWord} {k : ErrorKind} (h : encodeCheck hrp payload = some k) :
    (k = .incorrectHrpSize ∧ hrp.length = 0) ∨
    (k = .invalidCharacter ∧ hrp.length ≠ 0 ∧ ∃ c ∈ hrp, isPrintable c = false) ∨
    (k = .capacityExceeded ∧ hrp.length ≠ 0 ∧ (∀ c ∈ hrp, isPrintable c = true) ∧ 248 < hrp.length + payload.length) := by
  unfold encodeCheck maxCapacity at h
  split at h
  · next hl => exact .inl ⟨by simpa using h.symm, hl⟩
  · next hl =>
    split at h
    · next hp => exact .inr (.inl ⟨by simpa using h.symm, hl, by simpa using hp⟩)
    · next hp =>
      split at h
      · exact .inr (.inr ⟨by simpa using h.symm, hl, by simpa using hp, by omega⟩)
      · cases h

/-! The stages of DECODE -/

/-- Stage 3 finds the last delimiter. -/
theorem lastDelimiter_eq_some_iff {cs : List Code} {k : Nat} :
    lastDelimiter cs = some k ↔ cs[k]? = some delimiter ∧ ∀ j : Nat, k < j → cs[j]? ≠ some delimiter := by
  induction cs generalizing k with
  | nil => simp [lastDelimiter]
  | cons c cs ih =>
    simp only [lastDelimiter]
    cases hl : lastDelimiter cs with
    | some m =>
      obtain ⟨hm, hlast⟩ := ih.1 hl
      constructor
      · rintro ⟨⟩
        refine ⟨by simpa using hm, fun j hj => ?_⟩
        obtain ⟨j', rfl⟩ : ∃ j', j = j' + 1 := ⟨j - 1, by omega⟩
        simpa using hlast j' (by omega)
      · rintro ⟨hk, hk'⟩
        have h1 : ¬ k < m + 1 := fun h => hk' (m + 1) h (by simpa using hm)
        obtain ⟨k', rfl⟩ : ∃ k', k = k' + 1 := ⟨k - 1, by omega⟩
        have h2 : ¬ m < k' := fun h => hlast k' h (by simpa using hk)
        simp; omega
    | none =>
      have hnone : ∀ j : Nat, cs[j]? ≠ some delimiter := by
        intro j hj
        obtain ⟨m, hm⟩ : ∃ m, lastDelimiter cs = some m := by
          clear ih hl
          induction cs generalizing j with
          | nil => simp at hj
          | cons d ds ih =>
            cases hd : lastDelimiter ds with
            | some m => exact ⟨m + 1, by simp [lastDelimiter, hd]⟩
            | none =>
              cases j with
              | zero => exact ⟨0, by simp at hj; simp [lastDelimiter, hd, hj]⟩
              | succ j =>
                obtain ⟨m, hm⟩ := ih j (by simpa using hj)
                simp [hm] at hd
        simp [hm] at hl
      by_cases hc : c = delimiter
      · simp only [hc, if_true]
        constructor
        · rintro ⟨⟩
          refine ⟨rfl, fun j hj => ?_⟩
          obtain ⟨j', rfl⟩ : ∃ j', j = j' + 1 := ⟨j - 1, by omega⟩
          simpa using hnone j'
        · rintro ⟨hk, _⟩
          cases k with
          | zero => rfl
          | succ k => exact absurd (by simpa using hk) (hnone k)
      · simp only [hc, if_false, false_iff, not_and, reduceCtorEq]
        intro hk
        cases k with
        | zero => simp [hc] at hk
        | succ k => exact absurd (by simpa using hk) (hnone k)

/-- Stage 3 fails exactly when there is no delimiter. -/
theorem lastDelimiter_eq_none_iff {cs : List Code} : lastDelimiter cs = none ↔ ∀ c ∈ cs, c ≠ delimiter := by
  induction cs with
  | nil => simp [lastDelimiter]
  | cons c cs ih =>
    simp only [lastDelimiter]
    cases hl : lastDelimiter cs with
    | some m =>
      simp only [hl, false_iff, reduceCtorEq] at ih ⊢
      intro h
      exact ih fun d hd => h d (by simp [hd])
    | none =>
      have := ih.1 hl
      split <;> simp_all

/-- Stage 6 succeeds exactly when every character has a value, and gives those values in order. -/
theorem mapCharacters_eq_some_iff {cs : List Code} {ws : List DataWord} :
    mapCharacters cs = some ws ↔
      (∀ c ∈ cs, decChar c ≠ sentinel) ∧ ws = cs.map (fun c => (decChar c).setWidth 5) := by
  induction cs generalizing ws with
  | nil => simp [mapCharacters, eq_comm]
  | cons c cs ih =>
    simp only [mapCharacters]
    split
    · next h => simp [h]
    · next h =>
      cases hm : mapCharacters cs with
      | none =>
        simp only [hm, false_iff, reduceCtorEq] at ih ⊢
        rintro ⟨hall, -⟩
        exact (ih (ws := cs.map (fun c => (decChar c).setWidth 5))) ⟨fun d hd => hall d (by simp [hd]), rfl⟩
      | some ws' =>
        obtain ⟨hall, rfl⟩ := ih.1 hm
        constructor
        · rintro ⟨⟩
          exact ⟨by simpa [h] using hall, rfl⟩
        · rintro ⟨-, rfl⟩
          rfl

/-- Stage 6 fails exactly when some character has no value. -/
theorem mapCharacters_eq_none_iff {cs : List Code} : mapCharacters cs = none ↔ ∃ c ∈ cs, decChar c = sentinel := by
  cases hm : mapCharacters cs with
  | none =>
    simp only [true_iff]
    by_contra hne
    push Not at hne
    have := mapCharacters_eq_some_iff.2 ⟨hne, rfl⟩
    simp [hm] at this
  | some ws =>
    have := (mapCharacters_eq_some_iff.1 hm).1
    simp only [false_iff, reduceCtorEq]
    rintro ⟨c, hc, h⟩
    exact this c hc h

/-- Everything a successful DECODE of a string can be: the nine stages pass. -/
theorem decodeString_eq_decoded {str hrp : List Code} {payload : List DataWord} {p : Accum}
    (h : decodeString str = .decoded hrp payload p) :
    str.length ≤ 90 ∧ (∀ c ∈ str, isPrintable c = true) ∧ ¬ (str.any isLower = true ∧ str.any isUpper = true) ∧
    ∃ pos words, lastDelimiter str = some pos ∧ 1 ≤ pos ∧ pos + 7 ≤ str.length ∧
      mapCharacters (str.drop (pos + 1)) = some words ∧ hrp = lowercase (str.take pos) ∧
      payload = words.take (words.length - 6) ∧ p = 1#32 ∧ polymod (expandHrp hrp ++ words) = 1#32 := by
  unfold decodeString maxLen at h
  split at h
  · cases h
  split at h
  · cases h
  split at h
  · cases h
  next hlen hprint hcase =>
  split at h
  · cases h
  next pos hpos =>
  unfold decodeAt at h
  split at h
  · cases h
  split at h
  · cases h
  split at h
  · cases h
  next words hwords =>
  by_cases hp : polymod (expandHrp (lowercase (str.take pos)) ++ words) = 1#32
  · simp only [decodeVerify, verifyChecksum, hp, decide_true, if_true, DecodeResult.decoded.injEq] at h
    obtain ⟨rfl, rfl, rfl⟩ := h
    exact ⟨by omega, by simpa using hprint, by simpa using hcase, pos, words, hpos, by omega, by omega, hwords, rfl, rfl, rfl, hp⟩
  · simp [decodeVerify, verifyChecksum, hp] at h

/-- A checksum mismatch is a polymod other than 1 over the lower-cased HRP and the decoded words, stages 1 to 7 passed. -/
theorem decodeString_eq_mismatch {str : List Code} {p : Accum} (h : decodeString str = .mismatch p) :
    str.length ≤ 90 ∧ (∀ c ∈ str, isPrintable c = true) ∧ ¬ (str.any isLower = true ∧ str.any isUpper = true) ∧
    ∃ pos words, lastDelimiter str = some pos ∧ 1 ≤ pos ∧ pos + 7 ≤ str.length ∧
      mapCharacters (str.drop (pos + 1)) = some words ∧
      p = polymod (expandHrp (lowercase (str.take pos)) ++ words) ∧ p ≠ 1#32 := by
  unfold decodeString maxLen at h
  split at h
  · cases h
  split at h
  · cases h
  split at h
  · cases h
  next hlen hprint hcase =>
  split at h
  · cases h
  next pos hpos =>
  unfold decodeAt at h
  split at h
  · cases h
  split at h
  · cases h
  split at h
  · cases h
  next words hwords =>
  by_cases hp : polymod (expandHrp (lowercase (str.take pos)) ++ words) = 1#32
  · simp [decodeVerify, verifyChecksum, hp] at h
  · simp only [decodeVerify, verifyChecksum, hp, decide_false, DecodeResult.mismatch.injEq, reduceIte, Bool.false_eq_true] at h
    exact ⟨by omega, by simpa using hprint, by simpa using hcase, pos, words, hpos, by omega, by omega, hwords, h.symm, h ▸ hp⟩

/-- A failure before the polymod has one of the codes 1..7. -/
theorem decodeString_failed_code {str : List Code} {k : ErrorKind} (h : decodeString str = .failed k) :
    (errorCode k).toNat ≤ 7 := by
  unfold decodeString at h
  split at h
  · cases h; decide
  split at h
  · cases h; decide
  split at h
  · cases h; decide
  split at h
  · cases h; decide
  unfold decodeAt at h
  split at h
  · cases h; decide
  split at h
  · cases h; decide
  split at h
  · cases h; decide
  simp only [decodeVerify] at h
  split at h <;> cases h

end Sys2Proof.Machine
end

