-- ==== Sys2Proof/Laws/Decode.lean ====
section
/-! SUPPORT. The two fields of a command word, and when the operand checks of the decoder pass. -/

namespace Sys2Proof

/-- A command word is its `op` followed by its `arg` (R50). -/
theorem opField_append_argField (w : CommandWord) : opField w ++ argField w = w := by
  apply BitVec.eq_of_getLsbD_eq
  intro i hi
  simp only [opField, argField, BitVec.getLsbD_append, BitVec.getLsbD_extractLsb']
  by_cases h : i < 8
  · simp [h]
  · simp [h, show i - 8 < 8 by omega, show 8 + (i - 8) = i by omega]

theorem opField_toNat (w : CommandWord) : (opField w).toNat = w.toNat / 256 := by
  have := w.isLt
  simp [opField, BitVec.extractLsb'_toNat, Nat.shiftRight_eq_div_pow]
  omega

theorem argField_toNat (w : CommandWord) : (argField w).toNat = w.toNat % 256 := by
  simp [argField, BitVec.extractLsb'_toNat]

theorem noOperand_eq_ok_iff {arg : BitVec 8} {i j : Instr} : noOperand arg i = .ok j ↔ arg = 0#8 ∧ i = j := by
  unfold noOperand
  split <;> simp_all

/-- The word operand passes exactly when `arg` is a data word zero-extended. -/
theorem wordOperand_eq_ok_iff {arg : BitVec 8} {f : DataWord → Instr} {j : Instr} :
    wordOperand arg f = .ok j ↔ ∃ v : DataWord, arg = v.setWidth 8 ∧ f v = j := by
  have key : ∀ a : BitVec 8, a.extractLsb' 5 3 = 0 → a = (a.extractLsb' 0 5).setWidth 8 := by decide
  have back : ∀ v : DataWord, (v.setWidth 8).extractLsb' 5 3 = 0#3 ∧ (v.setWidth 8).extractLsb' 0 5 = v := by decide
  unfold wordOperand
  split
  · next h =>
    constructor
    · intro hj
      exact ⟨arg.extractLsb' 0 5, key arg h, by simpa using hj⟩
    · rintro ⟨v, rfl, rfl⟩
      rw [(back v).2]
  · next h =>
    simp only [false_iff, reduceCtorEq]
    rintro ⟨v, rfl, -⟩
    exact h (back v).1

end Sys2Proof
end

