-- ==== Sys2Proof/Laws/Exec.lean ====
section
/-! SUPPORT. What a step, a host primitive and the three commands that can fail can do, case by case. -/

namespace Sys2Proof.Machine

@[simp] theorem step_nil {s : State} (h : s.script = []) : step s = .next s := by simp [step, h]

@[simp] theorem step_cons {s : State} {a : HostAction} {rest : List HostAction} (h : s.script = a :: rest) :
    step s = perform a (s.setScript rest) := by simp [step, h]

/-- A write of CMD runs the command word (R16). -/
@[simp] theorem perform_cmd (w : CommandWord) (s : State) : perform (.regWrite 0 w) s = runCommand w s := rfl

theorem runCommand_ok {w : CommandWord} {i : Instr} (h : decodeCommand w = .ok i) (s : State) : runCommand w s = exec i s := by
  simp [runCommand, h]

theorem runCommand_error {w : CommandWord} {e : Illegal} (h : decodeCommand w = .error e) (s : State) :
    runCommand w s = .next (s.raise .illegalCommand) := by
  simp [runCommand, h]

/-- HRPX either fails for capacity or writes the expansion. -/
theorem execHrpx_cases (s : State) :
    (128 ≤ s.hlen.toNat ∧ execHrpx s = .next ((s.setWlen 0).raise .capacityExceeded)) ∨
    (s.hlen.toNat ≤ 127 ∧ execHrpx s =
      .next ((s.setWb (storeBuf s.wb (expandHrp s.hrpInput))).setWlen (lengthReg (2 * s.hlen.toNat + 1))).complete) := by
  by_cases h : 128 ≤ s.hlen.toNat
  · exact .inl ⟨h, by simp [execHrpx, maxCapacity, show 255 < 2 * s.hlen.toNat + 1 by omega]⟩
  · exact .inr ⟨by omega, by simp [execHrpx, maxCapacity, show ¬ 255 < 2 * s.hlen.toNat + 1 by omega]⟩

/-- ENCODE either fails a check or succeeds. -/
theorem execEncode_cases (s : State) :
    (∃ k, encodeCheck s.hrpInput s.wordInput = some k ∧ execEncode s = .next (s.encodeFails k)) ∨
    (encodeCheck s.hrpInput s.wordInput = none ∧ execEncode s = .next s.encodeSucceeds) := by
  cases h : encodeCheck s.hrpInput s.wordInput with
  | some k => exact .inl ⟨k, rfl, by simp [execEncode, h]⟩
  | none => exact .inr ⟨rfl, by simp [execEncode, h]⟩

/-- DECODE either fails at a stage, or computes a polymod other than 1, or succeeds. -/
theorem execDecode_cases (s : State) :
    (∃ k, decodeString s.stringInput = .failed k ∧ execDecode s = .next (s.decodeFails k)) ∨
    (∃ p, decodeString s.stringInput = .mismatch p ∧ execDecode s = .next ((s.setChk p).decodeFails .checksumMismatch)) ∨
    (∃ hrp payload p, decodeString s.stringInput = .decoded hrp payload p ∧
      execDecode s = .next (s.decodeSucceeds hrp payload p)) := by
  cases h : decodeString s.stringInput with
  | failed k => exact .inl ⟨k, rfl, by simp [execDecode, h]⟩
  | mismatch p => exact .inr (.inl ⟨p, rfl, by simp [execDecode, h]⟩)
  | decoded hrp payload p => exact .inr (.inr ⟨hrp, payload, p, rfl, by simp [execDecode, h]⟩)

end Sys2Proof.Machine
end

