-- ==== Sys2Proof/Laws/PerInstr.lean ====
section
/-! SUPPORT. For every command: its encoding is a legal word by R53's three checks, which WellFormed.lean states apart from the
decoder. One lemma per constructor. -/

namespace Sys2Proof.Laws.LegalWord

/-- The word of the command passes R53's checks. -/
def Statement (i : Instr) : Prop := WellFormed.word (encodeCommand i) = true

theorem pminit : Statement .pminit := by unfold Statement; decide
theorem pmstep (v : DataWord) : Statement (.pmstep v) := by unfold Statement; revert v; decide
theorem pmrun : Statement .pmrun := by unfold Statement; decide
theorem encch (v : DataWord) : Statement (.encch v) := by unfold Statement; revert v; decide
theorem decch (c : Code) : Statement (.decch c) := by unfold Statement; revert c; decide
theorem hrpx : Statement .hrpx := by unfold Statement; decide
theorem ckcreate : Statement .ckcreate := by unfold Statement; decide
theorem ckverify : Statement .ckverify := by unfold Statement; decide
theorem encode : Statement .encode := by unfold Statement; decide
theorem decode : Statement .decode := by unfold Statement; decide

end Sys2Proof.Laws.LegalWord
end

