-- ==== Sys2Proof/Machine/Script.lean ====
section
/-! DEFINITION. The host-script notation (30_encoding.md R64) and the pseudo-operations with their expansions (R65), as lists
of host primitives. They are notation, not behaviour (92_eei_decisions.md D22): step never looks at them. -/

namespace Sys2Proof.Machine

/-- A mnemonic line: the write of CMD with the command's word (R64). -/
def Script.command (i : Instr) : HostAction := .regWrite 0 (encodeCommand i)

/-- `WRH`: write the characters to HB and their number to HLEN (R65); the text has at most 255 characters. -/
def Script.wrh (text : List Code) : List HostAction :=
  text.mapIdx (fun i c => .bufWrite .hb (Fin.ofNat 256 i) c) ++ [.regWrite 5 (BitVec.ofNat 8 text.length)]

/-- `WRW`: write the words to WB and their number to WLEN (R65); the list has at most 255 words. -/
def Script.wrw (words : List DataWord) : List HostAction :=
  words.mapIdx (fun i w => .bufWrite .wb (Fin.ofNat 256 i) w) ++ [.regWrite 6 (BitVec.ofNat 8 words.length)]

/-- `WRS`: write the characters to SB and their number to SLEN (R65); the text has at most 255 characters. -/
def Script.wrs (text : List Code) : List HostAction :=
  text.mapIdx (fun i c => .bufWrite .sb (Fin.ofNat 256 i) c) ++ [.regWrite 7 (BitVec.ofNat 8 text.length)]

/-- `RDB B, i` for `i = 0..n-1` (R65). -/
def Script.readBuffer (b : BufId) (n : Nat) : List HostAction :=
  (List.range n).map (fun i => .bufRead b (Fin.ofNat 256 i))

/-- `BECH32.ENCODE hrp, payload` up to the read of STATUS (R65). -/
def Script.bech32Encode (hrp : List Code) (payload : List DataWord) : List HostAction :=
  Script.wrh hrp ++ Script.wrw payload ++ [Script.command .encode, .regRead 1]

/-- The rest of `BECH32.ENCODE`, which the host chooses by the ERR it has read: the string if ERR = 0 (R65). -/
def Script.bech32EncodeReadout (s : State) : List HostAction :=
  if s.err = 0 then .regRead 7 :: Script.readBuffer .sb s.slen.toNat else []

/-- `BECH32.DECODE input` up to the read of STATUS: an input longer than 255 is described by `SLEN = 255` alone (R65). -/
def Script.bech32Decode (input : List Code) : List HostAction :=
  (if input.length ≤ 255 then Script.wrs input else [.regWrite 7 255]) ++ [Script.command .decode, .regRead 1]

/-- The rest of `BECH32.DECODE`: the HRP and the payload if ERR = 0 (R65). -/
def Script.bech32DecodeReadout (s : State) : List HostAction :=
  if s.err = 0 then
    .regRead 5 :: Script.readBuffer .hb s.hlen.toNat ++ .regRead 6 :: Script.readBuffer .wb s.wlen.toNat
  else []

end Sys2Proof.Machine
end

