-- ==== Sys2Proof/Tests/Slice0.lean ====
section
/-! SUPPORT. Tests of single steps on small states, with expected results from spec/95_test_vectors.md and the rules it names,
and for every statement with hypotheses a concrete case that meets them. -/

namespace Sys2Proof.Tests

open Sys2Proof.Machine

/-- The next state of an outcome. -/
def after : Host.Outcome State Fault Refusal → Option State
  | .next t => some t
  | .fault _ => none
  | .refused _ => none

/-- The power-on state with an HRP, a word sequence and a string written at the front of the three buffers. -/
def loaded (hrp : List Code) (words : List DataWord) (str : List Code) : State :=
  { State.reset with
    hb := storeBuf State.reset.hb hrp, hlen := BitVec.ofNat 8 hrp.length
    wb := storeBuf State.reset.wb words, wlen := BitVec.ofNat 8 words.length
    sb := storeBuf State.reset.sb str, slen := BitVec.ofNat 8 str.length }

/-- `"a12uel5l"`, the string of `"a"` with an empty payload (95 section 7). -/
def strA : List Code := [0x61, 0x31, 0x32, 0x75, 0x65, 0x6C, 0x35, 0x6C]

/-- `"bc1qpz58kw9e"` (95 section 7). -/
def strBc : List Code := [0x62, 0x63, 0x31, 0x71, 0x70, 0x7A, 0x35, 0x38, 0x6B, 0x77, 0x39, 0x65]

/-- `"BC1QPZ58KW9E"` (95 section 10, program 5). -/
def strBcUpper : List Code := [0x42, 0x43, 0x31, 0x51, 0x50, 0x5A, 0x35, 0x38, 0x4B, 0x57, 0x39, 0x45]

/-! ### Well-formedness of command words (R53): one ill-formed word for each check -/

theorem test_wf_legal : WellFormed.word 0x021F#16 = true ∧ WellFormed.word 0x05FF#16 = true := by decide
theorem test_wf_refuses_op_zero : WellFormed.opAssigned 0x0000#16 = false := by decide
theorem test_wf_refuses_op_above : WellFormed.opAssigned 0x0B00#16 = false := by decide
theorem test_wf_refuses_arg : WellFormed.argAbsent 0x0A01#16 = false := by decide
theorem test_wf_refuses_wide_word : WellFormed.argIsWord 0x0220#16 = false := by decide

/-! ### Decoding: words written out from R50 and R51, `op` in bits 15:8 and `arg` in bits 7:0 -/

theorem test_decode_pminit : decodeCommand 0b00000001_00000000#16 = .ok .pminit := by decide
theorem test_decode_pmstep : decodeCommand 0b00000010_00000110#16 = .ok (.pmstep 0b00110) := by decide
theorem test_decode_pmrun : decodeCommand 0b00000011_00000000#16 = .ok .pmrun := by decide
theorem test_decode_encch : decodeCommand 0b00000100_00011100#16 = .ok (.encch 0b11100) := by decide
theorem test_decode_decch : decodeCommand 0b00000101_01001100#16 = .ok (.decch 0b01001100) := by decide
theorem test_decode_hrpx : decodeCommand 0b00000110_00000000#16 = .ok .hrpx := by decide
theorem test_decode_ckcreate : decodeCommand 0b00000111_00000000#16 = .ok .ckcreate := by decide
theorem test_decode_ckverify : decodeCommand 0b00001000_00000000#16 = .ok .ckverify := by decide
theorem test_decode_encode : decodeCommand 0b00001001_00000000#16 = .ok .encode := by decide
theorem test_decode_decode : decodeCommand 0b00001010_00000000#16 = .ok .decode := by decide
theorem test_decode_rejects_by_name :
    decodeCommand 0x0000#16 = .error .unassignedOp ∧ decodeCommand 0x0301#16 = .error .nonzeroArg ∧
    decodeCommand 0x04FF#16 = .error .reservedArgBits := by decide
theorem test_encode_word : encodeCommand (.pmstep 6) = 0x0206#16 ∧ encodeCommand .decode = 0x0A00#16 := by decide
theorem test_table_word :
    decodeTableWord 16 0x0206 = some (.pmstep 6) ∧ decodeTableWord 16 0x0B00 = none ∧ decodeTableWord 32 0x10206 = none := by
  decide

/-! ### One command each (95 sections 3 to 8) -/

theorem test_encch : (after (exec (.encch 10) State.reset)).map (·.res) = some 0x32 := by decide
theorem test_encch_last : (after (exec (.encch 31) State.reset)).map (·.res) = some 0x6C := by decide
theorem test_decch_folds : (after (exec (.decch 0x4C) State.reset)).map (fun t => (t.res, t.err)) = some (0x1F, 0) := by decide
theorem test_decch_misses :
    [0x31#8, 0x42, 0x40, 0x5B, 0x60, 0x7B, 0x7F, 0x80, 0xFF].map
      (fun c => (after (exec (.decch c) State.reset)).map (fun t => (t.res, t.err))) = List.replicate 9 (some (0xFF, 0)) := by
  decide
theorem test_pminit : (after (exec .pminit { State.reset with chk := 5, err := 8 })).map (fun t => (t.chk, t.err)) = some (1, 0) := by
  decide
theorem test_pmstep : (after (exec (.pmstep 6) { State.reset with chk := 0x02110c85 })).map (·.chk) = some 0x394bc714 := by decide
theorem test_pmstep_all_feedback : pmStep 0x3fffffff 31 = 0x2b326eb4 ∧ pmStep 0x0abcdef0 20 = 0x3250905c := by decide
theorem test_pmrun : (after (exec .pmrun (loaded [] [1, 2, 3, 4, 5, 6, 7] []))).map (·.chk) = some 0x208faa13 := by decide
theorem test_pmrun_empty : (after (exec .pmrun { State.reset with chk := 9 })).map (·.chk) = some 1 := by decide
theorem test_hrpx :
    (after (exec .hrpx (loaded [0x7E, 0x21] [9, 9, 9, 9, 9, 9, 9] []))).map (fun t => (t.wb.toList.take 7, t.wlen, t.err)) =
      some ([3, 1, 0, 30, 1, 9, 9], 5, 0) := by decide +kernel
theorem test_hrpx_overflow :
    (after (exec .hrpx { loaded [] [7] [] with hlen := 128 })).map (fun t => (t.wb.toList.take 1, t.wlen, t.err)) =
      some ([7], 0, 9) := by decide +kernel
theorem test_ckcreate :
    (after (exec .ckcreate (loaded [0x62, 0x63] [0, 1, 2] []))).map (fun t => (t.chk, t.cksum)) =
      some (0x287b38b8, 0x287b38b9) := by decide +kernel
theorem test_ckcreate_unvalidated :
    (after (exec .ckcreate (loaded [0xFF, 0x00, 0x80] [5] []))).map (fun t => (t.chk, t.cksum, t.err)) =
      some (0x0ea0e4f4, 0x0ea0e4f5, 0) := by decide +kernel
theorem test_ckverify :
    (after (exec .ckverify (loaded [0x61] [10, 28, 25, 31, 20, 31] []))).map (fun t => (t.chk, t.valid, t.err)) =
      some (1, true, 0) := by decide +kernel
theorem test_ckverify_upper :
    (after (exec .ckverify { loaded [0x41] [10, 28, 25, 31, 20, 31] [] with valid := true })).map
      (fun t => (t.chk, t.valid, t.err)) = some (0x0424df39, false, 0) := by decide +kernel
theorem test_encode :
    (after (exec .encode (loaded [0x62, 0x63] [0, 1, 2] []))).map (fun t => (t.sb.toList.take 12, t.slen, t.chk, t.cksum)) =
      some (strBc, 12, 0x287b38b8, 0x287b38b9) := by decide +kernel
theorem test_encode_unprintable_before_capacity :
    (after (exec .encode { loaded (0x20 :: List.replicate 200 0x61) [] [0x41] with wlen := 100 })).map
      (fun t => (t.err, t.slen, t.sb.toList.take 1, t.chk)) = some (7, 0, [0x41], 1) := by decide +kernel
theorem test_decode_upper :
    (after (exec .decode (loaded [] [] strBcUpper))).map (fun t => (t.hrpInput, t.wordInput, t.chk, t.status)) =
      some ([0x62, 0x63], [0, 1, 2], 1, 0x00000010) := by decide +kernel
theorem test_decode_mismatch :
    (after (exec .decode { loaded [0x7A] [3] (strA.set 7 0x6D) with valid := true })).map
      (fun t => (t.status, t.hlen, t.chk, t.hb.toList.take 1)) = some (8, 0, 0x00000005, [0x7A]) := by decide +kernel
theorem test_decode_last_delimiter :
    (decodeString [0x78, 0x31, 0x31, 0x37, 0x6C, 0x70, 0x30, 0x75, 0x6B]) = .decoded [0x78, 0x31] [] 1 := by decide +kernel
theorem test_decode_order :
    [[0x61, 0x42, 0x01], [0x41, 0x61], [], [0x31], [0x61, 0x31, 0x62], [0x61, 0x31, 0x62, 0x62, 0x62, 0x62, 0x62, 0x62]].map
      (fun s => decodeString (s : List Code)) =
    [.failed .nonPrintableCharacter, .failed .invalidCase, .failed .noChecksumMarker, .failed .incorrectHrpSize,
     .failed .incorrectChecksumSize, .failed .invalidCharacter] := by decide +kernel

/-! ### The host's primitives and the step (95 section 9) -/

theorem test_illegal_word_keeps_valid :
    (after (perform (.regWrite 0 0x0A01#16) { State.reset with valid := true })).map (fun t => (t.status, t.valid)) =
      some (0x0000001A, true) := by decide
theorem test_read_only_chk : (after (perform (.regWrite 2 0x12345678#32) State.reset)).map (fun t => (t.chk, t.err)) = some (1, 0) := by
  decide
theorem test_hlen_reads_back :
    ((after (perform (.regWrite 5 200#8) State.reset)).bind (fun t => after (perform (.regRead 5) t))).map (·.answers) =
      some [200] := by decide
theorem test_absent_register : (after (perform (.regRead 8) State.reset)).map (·.answers) = some [0] := by decide
theorem test_buffer_write :
    (after (perform (.bufWrite .wb 255 31#5) State.reset)).map (fun t => (t.wb[255], t.wlen)) = some (31, 0) := by decide
theorem test_step_runs_fetch_word : (after (step (State.reset.withFetchWord 16 0x021F))).map (·.chk) = some 0x0000003F := by decide
theorem test_core_is_the_step : (after (Sys2Proof.core.step (State.reset.withFetchWord 16 0x0B00))).map (·.err) = some 10 := by decide
theorem test_script_wrh :
    Script.wrh [0x62, 0x63] = [.bufWrite .hb 0 0x62#8, .bufWrite .hb 1 0x63#8, .regWrite 5 2#8] := by decide
theorem test_script_decode_overlong :
    Script.bech32Decode (List.replicate 256 0x61) = [.regWrite 7 255#8, .regWrite 0 0x0A00#16, .regRead 1] := by decide +kernel

/-! ### Witnesses: for each statement with hypotheses, concrete values that meet them, clause by clause -/

theorem witness_LegalWordIsTheWordOfItsCommand : decodeCommand 0x0206#16 = .ok (.pmstep 6) := by decide

/-- A word at the edge of each clause of R53, and legal words beside them. -/
theorem witness_IllegalWordsOnlySetErr :
    (0x0000#16).toNat / 256 = 0 ∧ 0x0B ≤ (0x0B00#16).toNat / 256 ∧
    ((0x0A01#16).toNat / 256 ∈ [1, 3, 6, 7, 8, 9, 10] ∧ (0x0A01#16).toNat % 256 ≠ 0) ∧
    ((0x0220#16).toNat / 256 ∈ [2, 4] ∧ 32 ≤ (0x0220#16).toNat % 256) ∧
    (let op := (0x021F#16).toNat / 256
     let arg := (0x021F#16).toNat % 256
     ¬ (op = 0 ∨ 0x0B ≤ op ∨ (op ∈ [1, 3, 6, 7, 8, 9, 10] ∧ arg ≠ 0) ∨ (op ∈ [2, 4] ∧ 32 ≤ arg))) := by decide

theorem witness_AbsentAndReadOnlyRegisters : (0 = 0 ∨ 8 ≤ 0) ∧ ((8 : Nat) = 0 ∨ 8 ≤ 8) ∧ 8 ≤ 8 := by decide

theorem witness_BufferWriteSetsOneElement :
    (BufId.wb ≠ BufId.hb ∨ (0 : Fin 256) ≠ 0) ∧ (BufId.hb ≠ BufId.hb ∨ (255 : Fin 256) ≠ 0) := by decide

theorem witness_StepRunsTheDecodedCommand :
    (State.reset.withFetchWord 16 0x0100).script = .regWrite 0 0x0100#16 :: [] ∧ decodeCommand 0x0100#16 = .ok .pminit := by
  decide

theorem witness_IdleStepChangesNothing : State.reset.script = [] := rfl

theorem witness_StepKeepsThirtyBitsAndErrCodes :
    (State.reset.withFetchWord 16 0x021F).Inv ∧ ∃ t, step (State.reset.withFetchWord 16 0x021F) = .next t :=
  ⟨by decide, _, rfl⟩

/-- A failing case of each row of R111, and a command that does not fail. -/
theorem witness_FailingCommandsWriteOnlyTheList :
    decodeCommand 0x0B00#16 = .error .unassignedOp ∧
    (after (exec .hrpx { State.reset with hlen := 128 })).map (fun t => decide (t.err ≠ 0)) = some true ∧
    (after (exec .encode State.reset)).map (fun t => decide (t.err ≠ 0)) = some true ∧
    (after (exec .decode State.reset)).map (fun t => decide (t.err ≠ 0 ∧ t.err.toNat ≤ 7)) = some true ∧
    (after (exec .decode (loaded [] [] (strA.set 7 0x6D)))).map (fun t => decide (t.err = 8)) = some true ∧
    (Instr.pminit ≠ .hrpx ∧ Instr.pminit ≠ .encode ∧ Instr.pminit ≠ .decode ∧
      (after (exec .pminit State.reset)).isSome = true) := by decide +kernel

/-- Two states with equal registers and sequences that differ in an element of SB at SLEN. -/
theorem witness_CommandsReadOnlyTheSequences :
    SameSequences { loaded [0x61] [1] [0x62] with slen := 0 } { loaded [0x61] [1] [0x63] with slen := 0 } ∧
    (loaded [0x61] [1] [0x62]).sb[0] ≠ (loaded [0x61] [1] [0x63]).sb[0] :=
  ⟨⟨rfl, fun _ _ => rfl, fun _ _ => rfl, fun _ h => absurd h (Nat.not_lt_zero _)⟩, by decide⟩

theorem witness_EncchLooksUpTheAlphabet : 32 ≤ (0x20#8).toNat ∧ 32 ≤ (0xFF#8).toNat := by decide

theorem witness_DecchInvertsTheAlphabet :
    (65 ≤ (0x41#8).toNat ∧ (0x41#8).toNat ≤ 90) ∧ (65 ≤ (0x5A#8).toNat ∧ (0x5A#8).toNat ≤ 90) := by decide

theorem witness_CharsetLookupsInvert : decChar 0x51#8 ≠ 0xFF#8 := by decide

theorem witness_PminitSetsChkToOne : (0x01#8 : BitVec 8) ≠ 0 := by decide

theorem witness_PmstepAbsorbsTheWord : 32 ≤ (0x20#8).toNat := by decide

theorem witness_PmrunFoldsTheWordBuffer :
    (0x01#8 : BitVec 8) ≠ 0 ∧ SequenceIs (loaded [] [1, 2] []).wb (loaded [] [1, 2] []).wlen [1, 2] := by decide +kernel

theorem witness_StepShiftsSixCells : (0x3fffffff#32 : Accum).toNat < 2 ^ 30 := by decide

theorem witness_StepIsLinearOverXor :
    (0x12345678#32 : Accum).toNat < 2 ^ 30 ∧ (0x0abcdef0#32 : Accum).toNat < 2 ^ 30 := by decide

/-- Both sides of the capacity check. -/
theorem witness_HrpxWritesTheExpansion :
    (0xFF#8 : BitVec 8) ≠ 0 ∧ ({ State.reset with hlen := 127 } : State).hlen.toNat ≤ 127 ∧
    128 ≤ ({ State.reset with hlen := 128 } : State).hlen.toNat := by decide

theorem witness_CkcreateComputesTheChecksum :
    (0x01#8 : BitVec 8) ≠ 0 ∧ SequenceIs (loaded [0x61] [0] []).hb (loaded [0x61] [0] []).hlen [0x61] ∧
    SequenceIs (loaded [0x61] [0] []).wb (loaded [0x61] [0] []).wlen [0] := by decide +kernel

theorem witness_CkverifyChecksTheChecksum :
    (0x01#8 : BitVec 8) ≠ 0 ∧ SequenceIs (loaded [0x61] [0] []).hb (loaded [0x61] [0] []).hlen [0x61] ∧
    SequenceIs (loaded [0x61] [0] []).wb (loaded [0x61] [0] []).wlen [0] := by decide +kernel

theorem witness_ChecksumWordsAreTheFields : (0x15ccfe9f#32 : Accum).toNat < 2 ^ 30 := by decide

/-- The state CKCREATE leaves for `"a"` and no payload, and the same with the six words of CKSUM in WB. -/
theorem witness_CkverifyAcceptsWhatCkcreateMade :
    let s := loaded [0x61] [] []
    let t := { s with chk := 0x15ccfe9e, cksum := 0x15ccfe9f }
    let u := loaded [0x61] [10, 28, 25, 31, 20, 31] []
    exec .ckcreate s = .next t ∧ u.hlen = s.hlen ∧ (∀ k : Fin 256, k.val < s.hlen.toNat → u.hb[k] = s.hb[k]) ∧
    u.wlen.toNat = s.wlen.toNat + 6 ∧ (∀ k : Fin 256, k.val < s.wlen.toNat → u.wb[k] = s.wb[k]) ∧
    (∀ k : Fin 256, s.wlen.toNat ≤ k.val → k.val < u.wlen.toNat →
      u.wb[k] = checksumWord t.cksum (k.val - s.wlen.toNat)) := by
  refine ⟨?_, by decide, by decide +kernel, by decide, by decide +kernel, by decide +kernel⟩
  have h : createChecksum (loaded [0x61] [] []).hrpInput (loaded [0x61] [] []).wordInput = (0x15ccfe9e, 0x15ccfe9f) := by
    decide +kernel
  simp only [exec, execCkcreate, h]
  rfl

/-- The success case at the edge of the capacity, and each failing case. -/
theorem witness_EncodeBuildsTheString :
    (0x01#8 : BitVec 8) ≠ 0 ∧
    (let s := loaded [0x61] (List.replicate 247 0) []
     SequenceIs s.hb s.hlen [0x61] ∧ SequenceIs s.wb s.wlen (List.replicate 247 0) ∧ 1 ≤ s.hlen.toNat ∧ s.HrpPrintable ∧
      s.hlen.toNat + s.wlen.toNat = 248) ∧
    State.reset.hlen = 0 ∧
    ((loaded [0x7F] [] []).hlen ≠ 0 ∧ ¬ (loaded [0x7F] [] []).HrpPrintable) ∧
    (let s := { loaded [0x61] [] [] with wlen := 248 }
     s.hlen ≠ 0 ∧ s.HrpPrintable ∧ 248 < s.hlen.toNat + s.wlen.toNat) := by
  refine ⟨by decide, by decide +kernel, rfl, by decide +kernel, by decide +kernel⟩

/-- A successful ENCODE of at most 90 characters without upper-case letters in the HRP, and a state that holds its string while
HB and WB are overwritten, as in program 2 of 95 section 10. -/
theorem witness_DecodeUndoesEncode :
    let s := loaded [0x62, 0x63] [0, 1, 2] []
    let u := loaded [0x7A, 0x7A, 0x7A, 0x7A] [9, 9, 9, 9, 9] strBc
    (after (exec .encode s)).map (fun t => decide (t.err = 0 ∧ t.slen.toNat ≤ 90 ∧ u.slen = t.slen ∧
      ∀ k : Fin 256, k.val < t.slen.toNat → t.sb[k] = u.sb[k])) = some true ∧
    (∀ k : Fin 256, k.val < s.hlen.toNat → ¬ (65 ≤ s.hb[k].toNat ∧ s.hb[k].toNat ≤ 90)) := by
  decide +kernel

/-- The same at the edge: an HRP of 83 characters and no payload give a string of 90. -/
theorem witness_DecodeUndoesEncode_longest :
    (after (exec .encode (loaded (List.replicate 83 0x61) [] []))).map (fun t => decide (t.err = 0 ∧ t.slen.toNat = 90)) =
      some true := by decide +kernel

theorem witness_EncodedStringReadsBack :
    (after (exec .encode (loaded [0x61] [0] []))).map (fun t => decide (t.err = 0)) = some true := by decide +kernel

/-- Both sides of the length limit. -/
theorem witness_DecodeRejectsLongStrings :
    90 < ({ State.reset with slen := 91 } : State).slen.toNat ∧ ({ State.reset with slen := 90 } : State).slen.toNat ≤ 90 := by
  decide

/-- DEL with both cases, both cases alone, and one case. -/
theorem witness_DecodeRejectsUnprintableThenMixedCase :
    ((loaded [] [] [0x61, 0x42, 0x7F]).slen.toNat ≤ 90 ∧ ¬ (loaded [] [] [0x61, 0x42, 0x7F]).StringPrintable) ∧
    ((loaded [] [] [0x61, 0x5A]).slen.toNat ≤ 90 ∧ (loaded [] [] [0x61, 0x5A]).StringPrintable ∧
      (loaded [] [] [0x61, 0x5A]).StringMixesCase) ∧
    ((loaded [] [] strA).slen.toNat ≤ 90 ∧ (loaded [] [] strA).StringPrintable ∧ ¬ (loaded [] [] strA).StringMixesCase) := by
  decide +kernel

/-- The empty string, and a string with a delimiter. -/
theorem witness_DecodeRejectsMissingDelimiter :
    (State.reset.slen.toNat ≤ 90 ∧ State.reset.StringPrintable ∧ ¬ State.reset.StringMixesCase ∧
      ∀ k : Fin 256, k.val < State.reset.slen.toNat → State.reset.sb[k] ≠ 0x31#8) ∧
    ((loaded [] [] strA).slen.toNat ≤ 90 ∧ (loaded [] [] strA).StringPrintable ∧ ¬ (loaded [] [] strA).StringMixesCase ∧
      ∃ k : Fin 256, k.val < (loaded [] [] strA).slen.toNat ∧ (loaded [] [] strA).sb[k] = 0x31#8) := by decide +kernel

/-- The delimiter first, five characters after it, and six. -/
theorem witness_DecodeRejectsEmptyHrpThenShortData :
    ((loaded [] [] [0x31]).SplitsAt 0 ∧ (0 : Fin 256).val < 1) ∧
    ((loaded [] [] (strA.take 7)).SplitsAt 1 ∧ 1 ≤ (1 : Fin 256).val ∧ (loaded [] [] (strA.take 7)).slen.toNat < (1 : Fin 256).val + 7) ∧
    ((loaded [] [] strA).SplitsAt 1 ∧ 1 ≤ (1 : Fin 256).val ∧ (1 : Fin 256).val + 7 ≤ (loaded [] [] strA).slen.toNat) := by
  refine ⟨?_, ?_, ?_⟩ <;> decide +kernel

/-- The last character `b`, and every character in the alphabet. -/
theorem witness_DecodeRejectsBadDataCharacter :
    (let s := loaded [] [] (strA.set 7 0x62)
     s.SplitsAt 1 ∧ 1 ≤ (1 : Fin 256).val ∧ (1 : Fin 256).val + 7 ≤ s.slen.toNat ∧
      ∃ k : Fin 256, (1 : Fin 256).val < k.val ∧ k.val < s.slen.toNat ∧ decChar s.sb[k] = 0xFF#8) ∧
    (let s := loaded [] [] strA
     s.SplitsAt 1 ∧ 1 ≤ (1 : Fin 256).val ∧ (1 : Fin 256).val + 7 ≤ s.slen.toNat ∧
      ∀ k : Fin 256, (1 : Fin 256).val < k.val → k.val < s.slen.toNat → decChar s.sb[k] ≠ 0xFF#8) := by decide +kernel

/-- `"a12uel5m"` and `"a12uel5l"` (95 section 8). -/
theorem witness_DecodeVerifiesTheChecksum :
    ((loaded [] [] (strA.set 7 0x6D)).ReadsAs 1 [0x61] [10, 28, 25, 31, 20, 27] ∧
      polymod (expandHrp [0x61] ++ [10, 28, 25, 31, 20, 27]) ≠ 1#32) ∧
    ((loaded [] [] strA).ReadsAs 1 [0x61] [10, 28, 25, 31, 20, 31] ∧
      polymod (expandHrp [0x61] ++ [10, 28, 25, 31, 20, 31]) = 1#32) := by
  constructor <;> decide +kernel

/-- `"BC1QPZ58KW9E"` (95 section 8). -/
theorem witness_DecodeStoresHrpAndPayload :
    (0x01#8 : BitVec 8) ≠ 0 ∧
    (loaded [] [] strBcUpper).ReadsAs 2 [0x62, 0x63] [0, 1, 2, 20, 7, 22, 14, 5, 25] ∧
    polymod (expandHrp [0x62, 0x63] ++ [0, 1, 2, 20, 7, 22, 14, 5, 25]) = 1#32 := by decide +kernel

theorem witness_AcceptedStringsMeetTheInvariants :
    (after (exec .decode (loaded [] [] strA))).map (fun t => decide (t.err = 0)) = some true := by decide +kernel

/-- `"bc1qpz58kw9e"` and its upper-case form. -/
theorem witness_DecodeIgnoresUniformCase :
    let s := loaded [] [] strBc
    let upper := (loaded [] [] strBcUpper).sb
    (∀ k : Fin 256, k.val < s.slen.toNat → ¬ (65 ≤ s.sb[k].toNat ∧ s.sb[k].toNat ≤ 90)) ∧
    (∀ k : Fin 256, k.val < s.slen.toNat →
      upper[k] = if 97 ≤ s.sb[k].toNat ∧ s.sb[k].toNat ≤ 122 then s.sb[k] - 32#8 else s.sb[k]) := by decide +kernel

end Sys2Proof.Tests
end

/-! # Proofs: the state (10_state.md)

O16, O22, O18 and the tier 1 statements about registers, power-on and the step. The rules for one update of the state come
first; each command is then a composition of them. -/

namespace Sys2Proof.Machine

/-! ## The bounds every step keeps (R19, R20, R108) -/

section Bounds

variable {s : State}

/-- After a reset of any number the registers meet the bounds (R30). -/
theorem State.atReset_inv (k : Nat) : (State.atReset k).Inv := by
  simp [State.Inv, State.atReset]

/-! An update of CHK, CKSUM or ERR with a value in bounds keeps them; every other update does because `Inv` reads no other
field. -/

theorem State.Inv.setChk (h : s.Inv) {c : Accum} (hc : c.toNat < 2 ^ 30) : (s.setChk c).Inv := by
  obtain ⟨-, hcksum, herr⟩ := h
  exact ⟨hc, hcksum, herr⟩

theorem State.Inv.setCksum (h : s.Inv) {c : Accum} (hc : c.toNat < 2 ^ 30) : (s.setCksum c).Inv := by
  obtain ⟨hchk, -, herr⟩ := h
  exact ⟨hchk, hc, herr⟩

theorem State.Inv.setErr (h : s.Inv) {e : BitVec 4} (he : e.toNat ≤ 10) : (s.setErr e).Inv := by
  obtain ⟨hchk, hcksum, -⟩ := h
  exact ⟨hchk, hcksum, he⟩

theorem State.Inv.complete (h : s.Inv) : s.complete.Inv :=
  h.setErr (Nat.zero_le _)

theorem State.Inv.raise (h : s.Inv) (k : ErrorKind) : (s.raise k).Inv :=
  h.setErr (errorCode_range k).2

/-! The outcomes of ENCODE and DECODE. -/

theorem State.Inv.encodeFails (h : s.Inv) (k : ErrorKind) : (s.encodeFails k).Inv :=
  State.Inv.raise (s := s.setSlen 0) h k

theorem State.Inv.decodeFails (h : s.Inv) (k : ErrorKind) : (s.decodeFails k).Inv :=
  State.Inv.raise (s := ((s.setHlen 0).setWlen 0).setValid false) h k

theorem State.Inv.decodeSucceeds (h : s.Inv) (hrp : List Code) (payload : List DataWord) {p : Accum}
    (hp : p.toNat < 2 ^ 30) : (s.decodeSucceeds hrp payload p).Inv :=
  (h.setChk hp).complete

/-- Both values of a created checksum have 30 significant bits (R19, R20). -/
theorem createChecksum_lt (hrp : List Code) (payload : List DataWord) :
    (createChecksum hrp payload).1.toNat < 2 ^ 30 ∧ (createChecksum hrp payload).2.toNat < 2 ^ 30 :=
  ⟨polymod_lt _, xor_lt_two_pow_30 (polymod_lt _) (by decide)⟩

theorem State.Inv.encodeSucceeds (h : s.Inv) : s.encodeSucceeds.Inv := by
  obtain ⟨hp, hmod⟩ := createChecksum_lt s.hrpInput s.wordInput
  exact ((h.setChk hp).setCksum hmod).complete

/-- Every command completes and keeps the bounds. -/
theorem exec_keeps_inv (i : Instr) (h : s.Inv) : ∃ t, exec i s = .next t ∧ t.Inv := by
  cases i with
  | pminit => exact ⟨_, rfl, (h.setChk (by decide)).complete⟩
  | pmstep v => exact ⟨_, rfl, (h.setChk (pmStep_lt _ v)).complete⟩
  | pmrun => exact ⟨_, rfl, (h.setChk (polymod_lt _)).complete⟩
  | encch v => exact ⟨_, rfl, State.Inv.complete (s := s.setRes _) h⟩
  | decch c => exact ⟨_, rfl, State.Inv.complete (s := s.setRes _) h⟩
  | hrpx =>
    obtain ⟨-, heq⟩ | ⟨-, heq⟩ := execHrpx_cases s
    · exact ⟨_, heq, State.Inv.raise (s := s.setWlen 0) h _⟩
    · exact ⟨_, heq, State.Inv.complete (s := (s.setWb _).setWlen _) h⟩
  | ckcreate =>
    obtain ⟨hp, hmod⟩ := createChecksum_lt s.hrpInput s.wordInput
    exact ⟨_, rfl, ((h.setChk hp).setCksum hmod).complete⟩
  | ckverify => exact ⟨_, rfl, State.Inv.complete (s := (s.setChk _).setValid _) (h.setChk (polymod_lt _))⟩
  | encode =>
    obtain ⟨k, -, heq⟩ | ⟨-, heq⟩ := execEncode_cases s
    · exact ⟨_, heq, h.encodeFails k⟩
    · exact ⟨_, heq, h.encodeSucceeds⟩
  | decode =>
    obtain ⟨k, -, heq⟩ | ⟨p, hp, heq⟩ | ⟨hrp, payload, p, hp, heq⟩ := execDecode_cases s
    · exact ⟨_, heq, h.decodeFails k⟩
    · obtain ⟨-, -, -, pos, words, -, -, -, -, rfl, -⟩ := decodeString_eq_mismatch hp
      exact ⟨_, heq, (h.setChk (polymod_lt _)).decodeFails _⟩
    · obtain ⟨-, -, -, pos, words, -, -, -, -, -, -, rfl, -⟩ := decodeString_eq_decoded hp
      exact ⟨_, heq, h.decodeSucceeds _ _ (by decide)⟩

/-- A write of CMD keeps the bounds, whether its word is legal or not. -/
theorem runCommand_keeps_inv (w : CommandWord) (h : s.Inv) : ∃ t, runCommand w s = .next t ∧ t.Inv := by
  cases hw : decodeCommand w with
  | ok i => rw [runCommand_ok hw]; exact exec_keeps_inv i h
  | error e => rw [runCommand_error hw]; exact ⟨_, rfl, h.raise _⟩

theorem writeReg_keeps_inv (n : Nat) (v : BitVec (regWidth n)) (h : s.Inv) :
    ∃ t, writeReg n v s = .next t ∧ t.Inv := by
  unfold writeReg
  split
  · exact runCommand_keeps_inv _ h
  · exact ⟨_, rfl, h⟩
  · exact ⟨_, rfl, h⟩
  · exact ⟨_, rfl, h⟩
  · exact ⟨_, rfl, h⟩

/-- Every host primitive completes and keeps the bounds. -/
theorem perform_keeps_inv (a : HostAction) (h : s.Inv) : ∃ t, perform a s = .next t ∧ t.Inv := by
  cases a with
  | regRead n => exact ⟨_, rfl, h⟩
  | regWrite n v => exact writeReg_keeps_inv n v h
  | bufRead b i => exact ⟨_, rfl, h⟩
  | bufWrite b i v => cases b <;> exact ⟨_, rfl, h⟩
  | reset => exact ⟨_, rfl, State.atReset_inv (s.resets + 1)⟩

/-- Every step completes and keeps the bounds. -/
theorem step_keeps_inv (h : s.Inv) : ∃ t, step s = .next t ∧ t.Inv := by
  cases hs : s.script with
  | nil => exact ⟨s, step_nil hs, h⟩
  | cons a rest => rw [step_cons hs]; exact perform_keeps_inv (s := s.setScript rest) a h

end Bounds

/-- Settles O16: each command writes CHK and CKSUM with a polymod or its XOR with 1, and ERR with a code of R108. -/
theorem stepKeepsThirtyBitsAndErrCodes : Obligations.StepKeepsThirtyBitsAndErrCodes := by
  intro s t h hstep
  obtain ⟨u, hu, hinv⟩ := step_keeps_inv h
  obtain rfl : t = u := by simpa [hstep] using hu
  exact hinv

/-- Settles O17: the base case of O16's invariant, for reset number 0. -/
theorem powerOnMeetsTheBounds : Obligations.PowerOnMeetsTheBounds :=
  State.atReset_inv 0

/-! ## What a command reads (R12, R23) -/

section Reads

variable {w : Nat} {s t : State}

/-- Buffers that agree below `n` hold the same sequence `B[0..n)`. -/
theorem AgreeBelow.loadBuf_eq {n : BitVec 8} {b b' : Buf w} (h : AgreeBelow n b b') :
    loadBuf b' n.toNat = loadBuf b n.toNat := by
  have hn := n.isLt
  refine Sys2Proof.Machine.loadBuf_eq (by omega) (by simp; omega) fun k hk => ?_
  simpa [loadBuf, hk] using h k hk

/-- No element lies below the length 0. -/
theorem agreeBelow_zero (b b' : Buf w) : AgreeBelow 0 b b' :=
  fun _ hi => absurd hi (Nat.not_lt_zero _)

/-- Storing one sequence makes any two buffers agree below its length. -/
theorem agreeBelow_storeBuf (b b' : Buf w) (xs : List (BitVec w)) :
    AgreeBelow (lengthReg xs.length) (storeBuf b xs) (storeBuf b' xs) := by
  intro i hi
  have hlt : i.val < xs.length := by
    simp only [lengthReg, BitVec.toNat_ofNat] at hi
    exact hi.trans_le (Nat.mod_le _ _)
  simp [storeBuf_getElem, hlt]

/-! What two such states have in common. -/

theorem SameSequences.chk_eq (h : SameSequences s t) : t.chk = s.chk := by
  simpa using congrArg State.chk h.1

theorem SameSequences.hlen_eq (h : SameSequences s t) : t.hlen = s.hlen := by
  simpa using congrArg State.hlen h.1

theorem SameSequences.wlen_eq (h : SameSequences s t) : t.wlen = s.wlen := by
  simpa using congrArg State.wlen h.1

theorem SameSequences.slen_eq (h : SameSequences s t) : t.slen = s.slen := by
  simpa using congrArg State.slen h.1

theorem SameSequences.hrpInput_eq (h : SameSequences s t) : t.hrpInput = s.hrpInput := by
  obtain ⟨-, hhb, -, -⟩ := id h
  rw [State.hrpInput, h.hlen_eq, hhb.loadBuf_eq, State.hrpInput]

theorem SameSequences.wordInput_eq (h : SameSequences s t) : t.wordInput = s.wordInput := by
  obtain ⟨-, -, hwb, -⟩ := id h
  rw [State.wordInput, h.wlen_eq, hwb.loadBuf_eq, State.wordInput]

theorem SameSequences.stringInput_eq (h : SameSequences s t) : t.stringInput = s.stringInput := by
  obtain ⟨-, -, -, hsb⟩ := id h
  rw [State.stringInput, h.slen_eq, hsb.loadBuf_eq, State.stringInput]

/-! The same update on both sides keeps the relation. -/

theorem SameSequences.setErr (h : SameSequences s t) (e : BitVec 4) : SameSequences (s.setErr e) (t.setErr e) :=
  ⟨congrArg (State.setErr · e) h.1, h.2⟩

theorem SameSequences.setValid (h : SameSequences s t) (b : Bool) : SameSequences (s.setValid b) (t.setValid b) :=
  ⟨congrArg (State.setValid · b) h.1, h.2⟩

theorem SameSequences.setChk (h : SameSequences s t) (c : Accum) : SameSequences (s.setChk c) (t.setChk c) :=
  ⟨congrArg (State.setChk · c) h.1, h.2⟩

theorem SameSequences.setCksum (h : SameSequences s t) (c : Accum) : SameSequences (s.setCksum c) (t.setCksum c) :=
  ⟨congrArg (State.setCksum · c) h.1, h.2⟩

theorem SameSequences.setRes (h : SameSequences s t) (r : BitVec 8) : SameSequences (s.setRes r) (t.setRes r) :=
  ⟨congrArg (State.setRes · r) h.1, h.2⟩

/-- HB and HLEN written together: only the new buffers below the new length matter. -/
theorem SameSequences.setHrp (h : SameSequences s t) {b b' : Buf 8} {n : BitVec 8} (hb : AgreeBelow n b b') :
    SameSequences ((s.setHb b).setHlen n) ((t.setHb b').setHlen n) := by
  obtain ⟨heq, -, hwb, hsb⟩ := h
  exact ⟨congrArg (fun u => (State.setHb u b).setHlen n) heq, hb, hwb, hsb⟩

theorem SameSequences.setWords (h : SameSequences s t) {b b' : Buf 5} {n : BitVec 8} (hb : AgreeBelow n b b') :
    SameSequences ((s.setWb b).setWlen n) ((t.setWb b').setWlen n) := by
  obtain ⟨heq, hhb, -, hsb⟩ := h
  exact ⟨congrArg (fun u => (State.setWb u b).setWlen n) heq, hhb, hb, hsb⟩

theorem SameSequences.setString (h : SameSequences s t) {b b' : Buf 8} {n : BitVec 8} (hb : AgreeBelow n b b') :
    SameSequences ((s.setSb b).setSlen n) ((t.setSb b').setSlen n) := by
  obtain ⟨heq, hhb, hwb, -⟩ := h
  exact ⟨congrArg (fun u => (State.setSb u b).setSlen n) heq, hhb, hwb, hb⟩

theorem SameSequences.clearHlen (h : SameSequences s t) : SameSequences (s.setHlen 0) (t.setHlen 0) :=
  h.setHrp (agreeBelow_zero s.hb t.hb)

theorem SameSequences.clearWlen (h : SameSequences s t) : SameSequences (s.setWlen 0) (t.setWlen 0) :=
  h.setWords (agreeBelow_zero s.wb t.wb)

theorem SameSequences.clearSlen (h : SameSequences s t) : SameSequences (s.setSlen 0) (t.setSlen 0) :=
  h.setString (agreeBelow_zero s.sb t.sb)

/-! The outcomes of HRPX's success, of ENCODE and of DECODE. -/

theorem SameSequences.hrpxSucceeds (h : SameSequences s t) (hrp : List Code) {n : Nat} (hn : (expandHrp hrp).length = n) :
    SameSequences ((s.setWb (storeBuf s.wb (expandHrp hrp))).setWlen (lengthReg n))
      ((t.setWb (storeBuf t.wb (expandHrp hrp))).setWlen (lengthReg n)) := by
  subst hn
  exact h.setWords (agreeBelow_storeBuf _ _ _)

theorem SameSequences.encodeFails (h : SameSequences s t) (k : ErrorKind) :
    SameSequences (s.encodeFails k) (t.encodeFails k) :=
  h.clearSlen.setErr _

theorem SameSequences.encodeSucceeds (h : SameSequences s t) : SameSequences s.encodeSucceeds t.encodeSucceeds := by
  simp only [State.encodeSucceeds, h.hrpInput_eq, h.wordInput_eq]
  exact (((h.setChk _).setCksum _).setString (agreeBelow_storeBuf s.sb t.sb _)).setErr 0

theorem SameSequences.decodeFails (h : SameSequences s t) (k : ErrorKind) :
    SameSequences (s.decodeFails k) (t.decodeFails k) :=
  (h.clearHlen.clearWlen.setValid false).setErr _

theorem SameSequences.decodeSucceeds (h : SameSequences s t) (hrp : List Code) (payload : List DataWord) (p : Accum) :
    SameSequences (s.decodeSucceeds hrp payload p) (t.decodeSucceeds hrp payload p) :=
  ((((h.setChk p).setValid true).setHrp (agreeBelow_storeBuf s.hb t.hb hrp)).setWords
    (agreeBelow_storeBuf s.wb t.wb payload)).setErr 0

end Reads

/-- Settles O22: a command's values depend only on CHK and the three sequences, and what it stores it stores with its length. -/
theorem commandsReadOnlyTheSequences : Obligations.CommandsReadOnlyTheSequences := by
  intro i s t h
  have hhrp := h.hrpInput_eq
  have hwords := h.wordInput_eq
  cases i with
  | pminit => exact ⟨_, _, rfl, rfl, (h.setChk _).setErr 0⟩
  | pmstep v =>
    simp only [exec, execPmstep, h.chk_eq]
    exact ⟨_, _, rfl, rfl, (h.setChk _).setErr 0⟩
  | pmrun =>
    simp only [exec, execPmrun, hwords]
    exact ⟨_, _, rfl, rfl, (h.setChk _).setErr 0⟩
  | encch v => exact ⟨_, _, rfl, rfl, (h.setRes _).setErr 0⟩
  | decch c => exact ⟨_, _, rfl, rfl, (h.setRes _).setErr 0⟩
  | hrpx =>
    simp only [exec, execHrpx, h.hlen_eq, hhrp]
    split
    · exact ⟨_, _, rfl, rfl, h.clearWlen.setErr _⟩
    · exact ⟨_, _, rfl, rfl, (h.hrpxSucceeds s.hrpInput (by simp)).setErr 0⟩
  | ckcreate =>
    simp only [exec, execCkcreate, hhrp, hwords]
    exact ⟨_, _, rfl, rfl, ((h.setChk _).setCksum _).setErr 0⟩
  | ckverify =>
    simp only [exec, execCkverify, hhrp, hwords]
    exact ⟨_, _, rfl, rfl, ((h.setChk _).setValid _).setErr 0⟩
  | encode =>
    simp only [exec, execEncode, hhrp, hwords]
    cases encodeCheck s.hrpInput s.wordInput with
    | some k => exact ⟨_, _, rfl, rfl, h.encodeFails k⟩
    | none => exact ⟨_, _, rfl, rfl, h.encodeSucceeds⟩
  | decode =>
    simp only [exec, execDecode, h.stringInput_eq]
    cases decodeString s.stringInput with
    | failed k => exact ⟨_, _, rfl, rfl, h.decodeFails k⟩
    | mismatch p => exact ⟨_, _, rfl, rfl, (h.setChk p).decodeFails _⟩
    | decoded hrp payload p => exact ⟨_, _, rfl, rfl, h.decodeSucceeds hrp payload p⟩

/-! ## What a command writes (R31)

The outcomes of ENCODE and DECODE as one update of the old state. -/

section Writes

variable (s : State)

theorem State.encodeFails_eq (k : ErrorKind) : s.encodeFails k = { s with slen := 0, err := errorCode k } := rfl

theorem State.encodeSucceeds_eq :
    s.encodeSucceeds = { s with
      chk := (createChecksum s.hrpInput s.wordInput).1
      cksum := (createChecksum s.hrpInput s.wordInput).2
      sb := storeBuf s.sb (encodeString s.hrpInput s.wordInput)
      slen := lengthReg (encodeString s.hrpInput s.wordInput).length
      err := 0 } := rfl

theorem State.decodeFails_eq (k : ErrorKind) :
    s.decodeFails k = { s with hlen := 0, wlen := 0, valid := false, err := errorCode k } := rfl

theorem State.decodeSucceeds_eq (hrp : List Code) (payload : List DataWord) (p : Accum) :
    s.decodeSucceeds hrp payload p = { s with
      chk := p
      valid := true
      hb := storeBuf s.hb hrp
      hlen := lengthReg hrp.length
      wb := storeBuf s.wb payload
      wlen := lengthReg payload.length
      err := 0 } := rfl

end Writes

/-- Settles O18: on every path of every command the next state is the old one with fields of the command's row replaced, so
putting those fields back gives the old state. -/
theorem commandsWriteOnlyTheirRow : Obligations.CommandsWriteOnlyTheirRow := by
  intro i s
  cases i with
  | pminit => exact ⟨_, rfl, rfl⟩
  | pmstep v => exact ⟨_, rfl, rfl⟩
  | pmrun => exact ⟨_, rfl, rfl⟩
  | encch v => exact ⟨_, rfl, rfl⟩
  | decch c => exact ⟨_, rfl, rfl⟩
  | hrpx => obtain ⟨-, heq⟩ | ⟨-, heq⟩ := execHrpx_cases s <;> exact ⟨_, heq, by simp⟩
  | ckcreate => exact ⟨_, rfl, by simp⟩
  | ckverify => exact ⟨_, rfl, by simp⟩
  | encode =>
    obtain ⟨k, -, heq⟩ | ⟨-, heq⟩ := execEncode_cases s
    · rw [State.encodeFails_eq] at heq
      exact ⟨_, heq, rfl⟩
    · rw [State.encodeSucceeds_eq] at heq
      exact ⟨_, heq, rfl⟩
  | decode =>
    obtain ⟨k, -, heq⟩ | ⟨p, -, heq⟩ | ⟨hrp, payload, p, -, heq⟩ := execDecode_cases s
    · rw [State.decodeFails_eq] at heq
      exact ⟨_, heq, rfl⟩
    · rw [State.decodeFails_eq] at heq
      exact ⟨_, heq, rfl⟩
    · rw [State.decodeSucceeds_eq] at heq
      exact ⟨_, heq, rfl⟩

/-! ## Registers, power-on and the step -/

/-- The fields of STATUS as the host reads it (R17). -/
theorem status_fields (s : State) :
    s.status.extractLsb' 0 4 = s.err ∧ s.status.getLsbD 4 = s.valid ∧ s.status.extractLsb' 5 27 = 0 := by
  have fields : ∀ (b : Bool) (e : BitVec 4), let v : BitVec 32 := (BitVec.ofBool b ++ e).setWidth 32
      v.extractLsb' 0 4 = e ∧ v.getLsbD 4 = b ∧ v.extractLsb' 5 27 = 0 := by decide
  exact fields s.valid s.err

/-- Settles O7: STATUS by its fields, every other register by the table of `readReg`. -/
theorem registerReadsReturnTheRegister : Obligations.RegisterReadsReturnTheRegister :=
  fun s => ⟨⟨s.status, rfl, status_fields s⟩, rfl, rfl, rfl, rfl, rfl, rfl⟩

/-- Settles O8: each of the three numbers has its own arm of `writeReg` (R22, R33). -/
theorem lengthRegistersTakeAnyValue : Obligations.LengthRegistersTakeAnyValue :=
  fun _ _ => ⟨rfl, rfl, rfl⟩

/-- The buffers' elements after reset number `k` are its free values (R30). -/
theorem atReset_elements (k : Nat) (i : Fin 256) :
    (State.atReset k).hb[i] = Config.hbAtReset k i.val ∧ (State.atReset k).wb[i] = Config.wbAtReset k i.val ∧
      (State.atReset k).sb[i] = Config.sbAtReset k i.val := by
  simp [State.atReset]

/-- Settles O11: power-on is reset number 0. -/
theorem powerOnState : Obligations.PowerOnState :=
  ⟨rfl, rfl, rfl, rfl, rfl, rfl, rfl, rfl, atReset_elements 0, rfl, rfl⟩

/-- Settles O13: the step performs the write of CMD, which runs the command its word decodes to. -/
theorem stepRunsTheDecodedCommand : Obligations.StepRunsTheDecodedCommand := by
  intro s w rest i hs hw
  rw [step_cons hs, perform_cmd, runCommand_ok hw, State.setScript]

end Sys2Proof.Machine

/-! # Proofs: the host's primitives (20_memory.md)

O9, O15, O6 and O10. The rules for a read after a write of a buffer and for the registers the host cannot write come first;
then what each primitive leaves of the host's script. -/

namespace Sys2Proof.Machine

/-! ## Buffer accesses (R33, R40) -/

section Buffers

variable (s : State) (b : BufId) (i : Fin 256) (v : BitVec b.elemWidth)

/-- The element just written reads as the value written. -/
@[simp] theorem State.readBuf_writeBuf_same : (s.writeBuf b i v).readBuf b i = v := by
  cases b <;> simp [State.readBuf, State.writeBuf]

/-- A write leaves the elements at the other indices of its buffer, and every element of the other buffers. -/
theorem State.readBuf_writeBuf_of_ne {b' : BufId} {j : Fin 256} (h : b' ≠ b ∨ j ≠ i) :
    (s.writeBuf b i v).readBuf b' j = s.readBuf b' j := by
  have hij : b' = b → i.val ≠ j.val := fun hb hval => h.elim (· hb) (· (Fin.ext hval.symm))
  cases b <;> cases b'
  case hb.hb | wb.wb | sb.sb => exact Vector.getElem_set_ne i.isLt j.isLt (hij rfl)
  all_goals rfl

/-- A write leaves everything outside the buffers. -/
theorem State.writeBuf_frame : { s.writeBuf b i v with hb := s.hb, wb := s.wb, sb := s.sb } = s := by
  cases b <;> rfl

end Buffers

/-- Settles O9: by the rules for a read after a write, to the same element and to another one. -/
theorem bufferWriteSetsOneElement : Obligations.BufferWriteSetsOneElement :=
  fun s b i v => ⟨s.writeBuf b i v, rfl, s.readBuf_writeBuf_same b i v, fun _ _ => s.readBuf_writeBuf_of_ne b i v,
    s.writeBuf_frame b i v⟩

/-- Settles O10: `readBuf` has one arm per buffer, and `answer` writes nothing but the answers. -/
theorem bufferReadReturnsTheElement : Obligations.BufferReadReturnsTheElement :=
  fun _ _ => ⟨rfl, rfl, rfl⟩

/-! ## Absent and read-only registers (R34, R35) -/

/-- CMD and the numbers that name no register read as 0. -/
theorem State.readReg_eq_zero (s : State) {n : Nat} (h : n = 0 ∨ 8 ≤ n) : s.readReg n = 0 := by
  obtain rfl | hn := h
  · rfl
  · obtain ⟨m, rfl⟩ := Nat.exists_eq_add_of_le' hn
    rfl

/-- A write of a number that names no register is ignored. -/
theorem writeReg_absent {n : Nat} (h : 8 ≤ n) (v : BitVec (regWidth n)) (s : State) : writeReg n v s = .next s := by
  obtain ⟨m, rfl⟩ := Nat.exists_eq_add_of_le' h
  rfl

/-- A register read appends the register's value to the answers (R33, log entry 3). -/
theorem perform_regRead (n : Nat) (s : State) :
    perform (.regRead n) s = .next { s with answers := s.answers ++ [s.readReg n] } := rfl

/-- Settles O6: the four read-only numbers have no arm of their own in `writeReg`, like the absent ones. -/
theorem absentAndReadOnlyRegisters : Obligations.AbsentAndReadOnlyRegisters := by
  intro s
  refine ⟨fun n hn => ?_, fun n hn v => writeReg_absent hn v s, fun _ => rfl, fun _ => rfl, fun _ => rfl, fun _ => rfl⟩
  rw [perform_regRead, s.readReg_eq_zero hn]

/-! ## Every primitive completes and leaves the rest of the script (R39, R124) -/

section Script

variable (s : State)

/-- The script is in no command's row of R31. -/
theorem exec_keeps_script (i : Instr) : ∃ t, exec i s = .next t ∧ t.script = s.script := by
  obtain ⟨t, ht, hframe⟩ := commandsWriteOnlyTheirRow i s
  refine ⟨t, ht, ?_⟩
  cases i <;> exact (congrArg State.script hframe :)

theorem runCommand_keeps_script (w : CommandWord) : ∃ t, runCommand w s = .next t ∧ t.script = s.script := by
  cases hw : decodeCommand w with
  | ok i => rw [runCommand_ok hw]; exact exec_keeps_script s i
  | error e => rw [runCommand_error hw]; exact ⟨_, rfl, rfl⟩

theorem writeReg_keeps_script (n : Nat) (v : BitVec (regWidth n)) :
    ∃ t, writeReg n v s = .next t ∧ t.script = s.script := by
  unfold writeReg
  split
  · exact runCommand_keeps_script _ _
  · exact ⟨_, rfl, rfl⟩
  · exact ⟨_, rfl, rfl⟩
  · exact ⟨_, rfl, rfl⟩
  · exact ⟨_, rfl, rfl⟩

/-- Every host primitive completes, and none of them touches what the host has still to perform. -/
theorem perform_keeps_script (a : HostAction) : ∃ t, perform a s = .next t ∧ t.script = s.script := by
  cases a with
  | regRead n => exact ⟨_, rfl, rfl⟩
  | regWrite n v => exact writeReg_keeps_script s n v
  | bufRead b i => exact ⟨_, rfl, rfl⟩
  | bufWrite b i v => exact ⟨_, rfl, (congrArg State.script (s.writeBuf_frame b i v) :)⟩
  | reset => exact ⟨_, rfl, rfl⟩

end Script

/-- Settles O15: a step performs the first primitive on the state with the rest of the script, which the primitive keeps. -/
theorem everyStepCompletesOnePrimitive : Obligations.EveryStepCompletesOnePrimitive := by
  intro s
  cases hs : s.script with
  | nil => exact ⟨s, step_nil hs, hs⟩
  | cons a rest => rw [step_cons hs]; exact perform_keeps_script (s.setScript rest) a

end Sys2Proof.Machine

/-! # Proofs: the encoding of command words and the ROMs (30_encoding.md)

O2, O3, O1, O5, O23 and O35. What the two fields of a command's word are comes first; the decoder then has one rule: a word
decodes to a command exactly when it is the command's word. -/

namespace Sys2Proof

/-! ## Command words (R50 to R53) -/

@[simp] theorem opField_encodeCommand (i : Instr) : opField (encodeCommand i) = opcode i :=
  BitVec.extractLsb'_append_eq_left

@[simp] theorem argField_encodeCommand (i : Instr) : argField (encodeCommand i) = argOf i :=
  BitVec.extractLsb'_append_eq_right

/-- A word with the operation code and the operand byte of a command is the command's word. -/
theorem eq_encodeCommand_of_fields {w : CommandWord} {i : Instr} (hop : (opField w).toNat = (opcode i).toNat)
    (harg : argField w = argOf i) : w = encodeCommand i := by
  rw [← opField_append_argField w, BitVec.eq_of_toNat_eq hop, harg, encodeCommand]

/-- The operand checks of a command's row pass for its own operand byte. -/
theorem decodeCommand_encodeCommand (i : Instr) : decodeCommand (encodeCommand i) = .ok i := by
  rw [decodeCommand, opField_encodeCommand, argField_encodeCommand]
  cases i with
  | pmstep v | encch v => exact wordOperand_eq_ok_iff.2 ⟨v, rfl, rfl⟩
  | decch c => rfl
  | pminit | pmrun | hrpx | ckcreate | ckverify | encode | decode => exact noOperand_eq_ok_iff.2 ⟨rfl, rfl⟩

/-- Every row of R51 the decoder accepts fixes both fields of the word. -/
theorem eq_encodeCommand_of_decodeCommand {w : CommandWord} {i : Instr} (h : decodeCommand w = .ok i) :
    w = encodeCommand i := by
  unfold decodeCommand at h
  split at h
  case h_1 hop | h_3 hop | h_6 hop | h_7 hop | h_8 hop | h_9 hop | h_10 hop =>
    obtain ⟨harg, rfl⟩ := noOperand_eq_ok_iff.1 h
    exact eq_encodeCommand_of_fields hop harg
  case h_2 hop | h_4 hop =>
    obtain ⟨v, harg, rfl⟩ := wordOperand_eq_ok_iff.1 h
    exact eq_encodeCommand_of_fields hop harg
  case h_5 hop =>
    cases h
    exact eq_encodeCommand_of_fields hop rfl
  case h_11 => cases h

theorem decodeCommand_eq_ok_iff {w : CommandWord} {i : Instr} : decodeCommand w = .ok i ↔ w = encodeCommand i :=
  ⟨eq_encodeCommand_of_decodeCommand, by rintro rfl; exact decodeCommand_encodeCommand i⟩

/-- Settles O2: the decoder reads the two fields of the word back, and the operand checks pass. -/
theorem decodeOfEncodeIsTheCommand : Obligations.DecodeOfEncodeIsTheCommand :=
  decodeCommand_encodeCommand

/-- Settles O3: the fields of a word that decodes are the command's, and a word is its two fields. -/
theorem legalWordIsTheWordOfItsCommand : Obligations.LegalWordIsTheWordOfItsCommand :=
  fun _ _ h => (decodeCommand_eq_ok_iff.1 h).symm

/-- Settles O1: eight words are the words of their commands; the other three fail one check each. -/
theorem tableWordsDecode : Obligations.TableWordsDecode :=
  ⟨decodeCommand_encodeCommand .pminit, decodeCommand_encodeCommand (.pmstep 31), decodeCommand_encodeCommand (.encch 10),
    decodeCommand_encodeCommand (.decch 0x4C), decodeCommand_encodeCommand .hrpx, decodeCommand_encodeCommand .ckcreate,
    decodeCommand_encodeCommand .encode, decodeCommand_encodeCommand .decode, rfl, rfl, rfl⟩

/-! ## The number of legal words (R53)

Legal words and commands correspond one to one, so the words are counted by counting commands. -/

theorem encodeCommand_injective : Function.Injective encodeCommand := by
  intro i j h
  simpa [h, decodeCommand_encodeCommand] using (decodeCommand_encodeCommand i).symm

/-- A word is legal exactly when it is some command's word. -/
theorem decodeCommand_isSome_iff (w : CommandWord) :
    (decodeCommand w).toOption.isSome ↔ ∃ i, encodeCommand i = w := by
  simp only [eq_comm (b := w), ← decodeCommand_eq_ok_iff]
  cases decodeCommand w <;> simp [Except.toOption]

/-- The commands by their operand: seven have none, PMSTEP and ENCCH a data word, DECCH a character (R51). -/
def instrEquivOperand : Instr ≃ Fin 7 ⊕ (DataWord ⊕ DataWord) ⊕ Code where
  toFun
    | .pminit => .inl 0
    | .pmrun => .inl 1
    | .hrpx => .inl 2
    | .ckcreate => .inl 3
    | .ckverify => .inl 4
    | .encode => .inl 5
    | .decode => .inl 6
    | .pmstep v => .inr (.inl (.inl v))
    | .encch v => .inr (.inl (.inr v))
    | .decch c => .inr (.inr c)
  invFun
    | .inl k => #v[.pminit, .pmrun, .hrpx, .ckcreate, .ckverify, .encode, .decode][k]
    | .inr (.inl (.inl v)) => .pmstep v
    | .inr (.inl (.inr v)) => .encch v
    | .inr (.inr c) => .decch c
  left_inv i := by cases i <;> rfl
  right_inv
    | .inl k => by revert k; decide
    | .inr (.inl (.inl _)) | .inr (.inl (.inr _)) | .inr (.inr _) => rfl

theorem card_bitVec (w : Nat) : Nat.card (BitVec w) = 2 ^ w := by
  rw [Nat.card_congr BitVec.equivFin.toEquiv, Nat.card_fin]

/-- 7 + (32 + 32) + 256 commands. -/
theorem card_instr : Nat.card Instr = 327 := by
  rw [Nat.card_congr instrEquivOperand, Nat.card_sum, Nat.card_sum, Nat.card_sum, card_bitVec, card_bitVec, Nat.card_fin]
  norm_num

theorem countP_range_eq_ncard (p : Nat → Bool) (n : Nat) : (List.range n).countP p = {k | k < n ∧ p k}.ncard := by
  have hset : {k | k < n ∧ p k} = ((List.range n).filter p).toFinset := by ext; simp
  rw [hset, Set.ncard_coe_finset, List.toFinset_card_of_nodup (List.nodup_range.filter p), List.countP_eq_length_filter]

/-- The numbers of the legal words are those of the commands' words. -/
theorem legalNumbers_eq_range : {n | n < 2 ^ 16 ∧ (decodeCommand (BitVec.ofNat 16 n)).toOption.isSome} =
    Set.range fun i => (encodeCommand i).toNat := by
  ext n
  simp only [Set.mem_ofPred_eq, Set.mem_range, decodeCommand_isSome_iff]
  constructor
  · rintro ⟨hn, i, hi⟩
    exact ⟨i, by rw [hi, BitVec.toNat_ofNat, Nat.mod_eq_of_lt hn]⟩
  · rintro ⟨i, rfl⟩
    exact ⟨(encodeCommand i).isLt, i, by simp⟩

/-- Settles O5: each command has its own legal word, and there are 327 commands. -/
theorem legalWordsNumber327 : Obligations.LegalWordsNumber327 :=
  calc (List.range (2 ^ 16)).countP fun n => (decodeCommand (BitVec.ofNat 16 n)).toOption.isSome
    _ = (Set.range fun i => (encodeCommand i).toNat).ncard := by rw [countP_range_eq_ncard, legalNumbers_eq_range]
    _ = Nat.card Instr := Set.ncard_range_of_injective (BitVec.toNat_injective.comp encodeCommand_injective)
    _ = 327 := card_instr

end Sys2Proof

namespace Sys2Proof.Machine

/-! ## The ROMs (R55 to R57) -/

/-- DEC gives each value back at the code ENC has for it. -/
theorem decRom_encChar (v : DataWord) : ∃ h : (encChar v).toNat < 128, decRom[(encChar v).toNat] = v.setWidth 8 := by
  revert v; decide

/-- Where DEC has a value, ENC has the code at that value. -/
theorem encChar_decRom (c : Fin 128) : decRom[c] ≠ sentinel → (encChar (decRom[c].setWidth 5)).toNat = c.val := by
  revert c; decide +kernel

/-- No data word is the sentinel, and none loses a bit when DEC stores it in 8 bits. -/
theorem dataWord_in_dec (v : DataWord) : v.setWidth 8 ≠ sentinel ∧ (v.setWidth 8).setWidth 5 = v := by
  revert v; decide

theorem decRom_eq_iff (c : Fin 128) (v : DataWord) : decRom[c] = v.setWidth 8 ↔ (encChar v).toNat = c.val := by
  obtain ⟨hvalue, hback⟩ := dataWord_in_dec v
  constructor
  · intro h
    simpa only [h, hback] using encChar_decRom c (h ▸ hvalue)
  · intro h
    obtain ⟨hlt, hdec⟩ := decRom_encChar v
    simpa [h] using hdec

/-- Settles O23: DEC and ENC undo each other; the entries and the constants are counted and bounded one by one. -/
theorem romTablesAgree : Obligations.RomTablesAgree :=
  ⟨decRom_eq_iff, by decide, genRom_lt⟩

/-! ## The checksum words (R61) -/

theorem checksumWords_getElem? (mod : Accum) {i : Nat} (h : i < 6) :
    (checksumWords mod)[i]? = some (checksumWord mod i) := by
  rw [checksumWords, List.getElem?_map, show [0, 1, 2, 3, 4, 5] = List.range 6 from rfl, List.getElem?_range h,
    Option.map_some]

/-- A checksum word is a digit of the value in base 32. -/
theorem checksumWord_toNat (mod : Accum) (i : Nat) :
    (checksumWord mod i).toNat = mod.toNat / 2 ^ (5 * (5 - i)) % 32 := by
  have hmask : ∀ n : Nat, n &&& 31 = n % 32 := fun n => Nat.and_two_pow_sub_one_eq_mod n 5
  simp [checksumWord, hmask, Nat.shiftRight_eq_div_pow]

/-- Settles O35: a value below 2^30 is the sum of its six digits in base 32. -/
theorem checksumWordsAreTheFields : Obligations.ChecksumWordsAreTheFields := by
  intro mod hmod
  refine ⟨fun i => checksumWords_getElem? mod i.isLt, ?_⟩
  simp only [checksumWord_toNat]
  omega

end Sys2Proof.Machine

/-! # Proofs: the character set (40_charset.md)

O24, O25 and O26. When a word runs or is rejected comes first, for every command; then DEC, as `decChar` reads it, against
ENC up to case. -/

namespace Sys2Proof

/-! ## Words given by their two fields (R50, R53) -/

theorem encodeCommand_eq_append_iff {i : Instr} {op arg : BitVec 8} :
    encodeCommand i = op ++ arg ↔ opcode i = op ∧ argOf i = arg := by
  constructor
  · intro h
    rw [← opField_encodeCommand, ← argField_encodeCommand, h]
    exact ⟨BitVec.extractLsb'_append_eq_left, BitVec.extractLsb'_append_eq_right⟩
  · rintro ⟨rfl, rfl⟩
    rfl

/-- The operand of a command that takes a data word leaves `arg[7:5]` at 0 (R52). -/
theorem argOf_toNat_lt_of_opcode {i : Instr} (h : opcode i = 0x02#8 ∨ opcode i = 0x04#8) : (argOf i).toNat < 32 := by
  cases i with
  | pmstep v | encch v => exact ((BitVec.toNat_setWidth 8 v).trans_le (Nat.mod_le _ _)).trans_lt v.isLt
  | pminit | pmrun | decch _ | hrpx | ckcreate | ckverify | encode | decode => simp [opcode] at h

namespace Machine

/-- The word of a command runs the command. -/
theorem runsWord_encodeCommand (i : Instr) : RunsWord (encodeCommand i) i :=
  runCommand_ok (decodeCommand_encodeCommand i)

/-- A word that is no command's is rejected. -/
theorem rejectsWord_of_forall_ne {w : CommandWord} (h : ∀ i, encodeCommand i ≠ w) : RejectsWord w := by
  cases hw : decodeCommand w with
  | ok i => exact absurd (decodeCommand_eq_ok_iff.1 hw).symm (h i)
  | error e => exact runCommand_error hw

/-- An operation code with an operand byte that no command of that code has is rejected. -/
theorem rejectsWord_append {op arg : BitVec 8} (h : ∀ i, opcode i = op → argOf i ≠ arg) : RejectsWord (op ++ arg) :=
  rejectsWord_of_forall_ne fun i hi => (encodeCommand_eq_append_iff.1 hi).elim (h i)

/-- A word with the operation code of PMSTEP or ENCCH and a non-zero `arg[7:5]` is rejected (R53 (c)). -/
theorem rejectsWord_reservedArgBits {op arg : BitVec 8} (hop : op = 0x02#8 ∨ op = 0x04#8) (harg : 32 ≤ arg.toNat) :
    RejectsWord (op ++ arg) := by
  refine rejectsWord_append fun i hi harg' => ?_
  have := argOf_toNat_lt_of_opcode (hi ▸ hop)
  rw [harg'] at this
  omega

/-! ## ENCCH (R66, R69) -/

theorem encodeCommand_encch (v : DataWord) : encodeCommand (.encch v) = 0x0400#16 ||| v.setWidth 16 := by
  revert v; decide

/-- Settles O24: the word is the command's own, no command has the others, and the ENC table is compared with the alphabet
entry by entry. -/
theorem encchLooksUpTheAlphabet : Obligations.EncchLooksUpTheAlphabet :=
  ⟨fun v => encodeCommand_encch v ▸ runsWord_encodeCommand (.encch v),
    fun _ harg => rejectsWord_reservedArgBits (.inr rfl) harg,
    fun v _ => ⟨encChar v, rfl, by revert v; decide⟩⟩

/-! ## `dec_char` against `enc_char` (R67, R68) -/

theorem fold_eq_ite (c : Code) : fold c = if 65 ≤ c.toNat ∧ c.toNat ≤ 90 then c + 32#8 else c := by
  simp only [fold, isUpper_iff]

/-- A code of 128 or more is no letter. -/
theorem fold_of_ge {c : Code} (h : 128 ≤ c.toNat) : fold c = c := by
  rw [fold_eq_ite, if_neg (by omega)]

theorem fold_toNat_lt {c : Code} (h : c.toNat < 128) : (fold c).toNat < 128 := by
  rw [fold_eq_ite]
  split
  · bv_omega
  · exact h

theorem decChar_of_ge {c : Code} (h : 128 ≤ c.toNat) : decChar c = sentinel :=
  if_pos h

/-- Below 128 the lookup is the DEC entry of the folded code. -/
theorem decChar_of_lt {c : Code} (h : c.toNat < 128) :
    decChar c = decRom[(⟨(fold c).toNat, fold_toNat_lt h⟩ : Fin 128)] := by
  rw [decChar, if_neg (by omega), dif_pos (fold_toNat_lt h)]
  rfl

/-- `dec_char` answers a value at exactly the codes whose folded code is that value's character. -/
theorem decChar_eq_iff (c : Code) (v : DataWord) : decChar c = v.setWidth 8 ↔ encChar v = fold c := by
  obtain h | h := Nat.lt_or_ge c.toNat 128
  · rw [decChar_of_lt h, decRom_eq_iff, BitVec.toNat_inj]
  · have hvalue := (dataWord_in_dec v).1
    have hcode : encChar v ≠ c := by
      obtain ⟨hlt, -⟩ := decRom_encChar v
      rintro rfl
      omega
    simp [decChar_of_ge h, fold_of_ge h, hvalue.symm, hcode]

/-- What `dec_char` answers is the sentinel or a data word's value. -/
theorem exists_dataWord_of_decChar_ne {c : Code} (hc : decChar c ≠ sentinel) : ∃ v : DataWord, decChar c = v.setWidth 8 := by
  obtain h | h := Nat.lt_or_ge c.toNat 128
  · rw [decChar_of_lt h] at hc ⊢
    exact ⟨_, (decRom_eq_iff _ _).2 (encChar_decRom _ hc)⟩
  · exact absurd (decChar_of_ge h) hc

/-- The sentinel is the answer for exactly the codes that fold to no character of the alphabet. -/
theorem decChar_eq_sentinel_iff (c : Code) : decChar c = sentinel ↔ ∀ v : DataWord, encChar v ≠ fold c := by
  constructor
  · intro h v hv
    exact (dataWord_in_dec v).1 (((decChar_eq_iff c v).2 hv).symm.trans h)
  · intro h
    by_contra hc
    obtain ⟨v, hv⟩ := exists_dataWord_of_decChar_ne hc
    exact h v ((decChar_eq_iff c v).1 hv)

@[simp] theorem decChar_encChar (v : DataWord) : decChar (encChar v) = v.setWidth 8 := by
  obtain ⟨-, hupper, -⟩ := encChar_spec v
  exact (decChar_eq_iff _ v).2 (fold_eq_self hupper).symm

theorem encChar_decChar {c : Code} (hc : decChar c ≠ sentinel) : encChar ((decChar c).setWidth 5) = fold c := by
  obtain ⟨v, hv⟩ := exists_dataWord_of_decChar_ne hc
  rw [hv, (dataWord_in_dec v).2]
  exact (decChar_eq_iff c v).1 hv

/-- Settles O25: RES is `dec_char(c)`, and the two equivalences fix it. -/
theorem decchInvertsTheAlphabet : Obligations.DecchInvertsTheAlphabet := by
  refine ⟨fun c => runsWord_encodeCommand (.decch c), fun c s => ⟨decChar c, rfl, ?_⟩⟩
  rw [← fold_eq_ite]
  exact ⟨decChar_eq_iff c, decChar_eq_sentinel_iff c⟩

/-- Settles O26: the two inversion laws, and a count over the 256 codes. -/
theorem charsetLookupsInvert : Obligations.CharsetLookupsInvert :=
  ⟨decChar_encChar, fun _ => encChar_decChar, by decide +kernel⟩

end Machine

end Sys2Proof

/-! # Proofs: the polymod family (41_polymod.md)

O28, O29, O30, O31 and O27. The command words and the sequence a buffer holds come first; then the step, as a shift
followed by rounds of feedback: both parts are linear over XOR, and both act on the six cells of an accumulator. -/

namespace Sys2Proof.Machine

/-! ## Command words, and sequences (R51, R53, R9) -/

/-- The operation codes of the commands without an operand (R51). -/
def noOperandOpcodes : List (BitVec 8) := [0x01, 0x03, 0x06, 0x07, 0x08, 0x09, 0x0A]

theorem argOf_eq_zero_of_opcode {i : Instr} (h : opcode i ∈ noOperandOpcodes) : argOf i = 0 := by
  cases i with
  | pmstep v | encch v | decch c => simp [opcode, noOperandOpcodes] at h
  | pminit | pmrun | hrpx | ckcreate | ckverify | encode | decode => rfl

/-- A word with the operation code of a command without an operand and a non-zero `arg` is rejected (R53 (b)). -/
theorem rejectsWord_nonzeroArg {op arg : BitVec 8} (hop : op ∈ noOperandOpcodes) (harg : arg ≠ 0) :
    RejectsWord (op ++ arg) :=
  rejectsWord_append fun _ hi harg' => harg (harg' ▸ argOf_eq_zero_of_opcode (hi ▸ hop))

theorem encodeCommand_pmstep (v : DataWord) : encodeCommand (.pmstep v) = 0x0200#16 ||| v.setWidth 16 := by
  revert v; decide

/-- The sequence `B[0..n)`, read off its elements. -/
theorem loadBuf_eq_of_sequenceIs {w : Nat} {b : Buf w} {n : BitVec 8} {xs : List (BitVec w)} (h : SequenceIs b n xs) :
    loadBuf b n.toNat = xs :=
  loadBuf_eq n.isLt.le h.1 h.2

/-! ## PMINIT and PMRUN (R76, R78) -/

/-- Settles O27: the word is the command's own, no command has the others, and CHK receives the initial value. -/
theorem pminitSetsChkToOne : Obligations.PminitSetsChkToOne :=
  ⟨runsWord_encodeCommand .pminit, fun _ => rejectsWord_nonzeroArg (by decide), fun _ => rfl⟩

/-- Settles O29: the sequence `WB[0..WLEN)` is the word input, and the polymod is a fold of the step from 1. -/
theorem pmrunFoldsTheWordBuffer : Obligations.PmrunFoldsTheWordBuffer := by
  refine ⟨runsWord_encodeCommand .pmrun, fun _ => rejectsWord_nonzeroArg (by decide), fun s ws hws => ?_⟩
  have hinput : s.wordInput = ws := loadBuf_eq_of_sequenceIs hws
  rw [← hinput]
  rfl

/-! ## The step in two parts: the shift and the rounds of feedback (R71, R77) -/

/-- R71's `chk'`: bits 24:0 shifted up by a cell, and the word in the lowest cell. -/
def shiftIn (chk : Accum) (v : DataWord) : Accum := ((chk &&& 0x01ffffff#32) <<< 5) ^^^ v.setWidth 32

theorem pmStep_eq_foldl (chk : Accum) (v : DataWord) :
    pmStep chk v = List.foldl (feedback (chk >>> 25)) (shiftIn chk v) [0, 1, 2, 3, 4] := rfl

/-- A round XORs in its constant or nothing. -/
theorem feedback_eq_xor (top c : Accum) (i : Fin 5) :
    feedback top c i = c ^^^ if top.getLsbD i then genRom[i] else 0 := by
  unfold feedback
  split <;> simp

/-- Settles O28: bit `i` of `top` is bit `25 + i` of CHK, and each round XORs in the constant its bit selects. -/
theorem pmstepAbsorbsTheWord : Obligations.PmstepAbsorbsTheWord := by
  refine ⟨fun v => encodeCommand_pmstep v ▸ runsWord_encodeCommand (.pmstep v),
    fun _ harg => rejectsWord_reservedArgBits (.inl rfl) harg, fun v s => ?_⟩
  have hstep : exec (.pmstep v) s = .next { s with chk := pmStep s.chk v, err := 0 } := rfl
  simp only [hstep, pmStep_eq_foldl, shiftIn, List.foldl_cons, List.foldl_nil, feedback_eq_xor, BitVec.getLsbD_ushiftRight]
  rfl

/-! ## Linearity over XOR (R75) -/

/-- One round is linear over XOR, in `top` and in the accumulator together. -/
theorem feedback_xor (a b c d : Accum) (i : Fin 5) :
    feedback (a ^^^ b) (c ^^^ d) i = feedback a c i ^^^ feedback b d i := by
  have hconst : ∀ (p q : Bool) (g : Accum),
      (if p ^^ q then g else 0) = (if p then g else 0) ^^^ (if q then g else 0) := by
    intro p q g
    cases p <;> cases q <;> simp
  simp only [feedback_eq_xor, BitVec.getLsbD_xor, hconst]
  ac_rfl

/-- All the rounds together are linear over XOR. -/
theorem foldl_feedback_xor (rounds : List (Fin 5)) (a b c d : Accum) :
    rounds.foldl (feedback (a ^^^ b)) (c ^^^ d) = rounds.foldl (feedback a) c ^^^ rounds.foldl (feedback b) d := by
  induction rounds generalizing c d with
  | nil => rfl
  | cons i rounds ih => simp only [List.foldl_cons, feedback_xor, ih]

theorem bitVec_and_xor_distrib_right {n : Nat} (a b m : BitVec n) : (a ^^^ b) &&& m = (a &&& m) ^^^ (b &&& m) := by
  ext j
  simp [Bool.and_xor_distrib_right]

theorem shiftIn_xor (a b : Accum) (v w : DataWord) : shiftIn (a ^^^ b) (v ^^^ w) = shiftIn a v ^^^ shiftIn b w := by
  simp only [shiftIn, bitVec_and_xor_distrib_right, BitVec.shiftLeft_xor_distrib, BitVec.setWidth_xor]
  ac_rfl

/-- The step is linear over XOR, whatever the accumulators. -/
theorem pmStep_xor (a b : Accum) (v w : DataWord) : pmStep (a ^^^ b) (v ^^^ w) = pmStep a v ^^^ pmStep b w := by
  simp only [pmStep_eq_foldl, BitVec.ushiftRight_xor_distrib, shiftIn_xor, foldl_feedback_xor]

/-- Without a bit in the top cell the rounds change nothing. -/
theorem foldl_feedback_zero (rounds : List (Fin 5)) (c : Accum) : rounds.foldl (feedback 0#32) c = c := by
  induction rounds generalizing c with
  | nil => rfl
  | cons i rounds ih => simp [feedback_eq_xor, ih]

/-- From the accumulator 0 the step gives the word. -/
theorem pmStep_zero (v : DataWord) : pmStep 0#32 v = v.setWidth 32 := by
  rw [pmStep_eq_foldl, BitVec.zero_ushiftRight, foldl_feedback_zero]
  simp [shiftIn]

/-- Settles O31: linearity, and its cases at 0. Neither needs the bound 2^30. -/
theorem stepIsLinearOverXor : Obligations.StepIsLinearOverXor := by
  refine ⟨fun a b v w _ _ => pmStep_xor a b v w, pmStep_zero 0, pmStep_zero, fun a v _ => ?_⟩
  calc pmStep a v
    _ = pmStep (a ^^^ 0#32) (0#5 ^^^ v) := by rw [BitVec.xor_zero, BitVec.zero_xor]
    _ = pmStep a 0#5 ^^^ v.setWidth 32 := by rw [pmStep_xor, pmStep_zero]

/-! ## The six cells (R74) -/

/-- Cell `j` of an accumulator: bits `5j + 4 : 5j`. -/
def cell (a : Accum) (j : Nat) : DataWord := a.extractLsb' (5 * j) 5

theorem cell_xor (a b : Accum) (j : Nat) : cell (a ^^^ b) j = cell a j ^^^ cell b j :=
  BitVec.extractLsb'_xor

/-- R71's mask keeps bits 24:0. -/
theorem mask_getElem {n : Nat} (h : n < 25) : (0x01ffffff#32)[n] = true := by
  revert n; decide

theorem cell_shiftIn_zero (chk : Accum) (v : DataWord) : cell (shiftIn chk v) 0 = v := by
  ext i hi
  have hlt : i < 32 := by omega
  simp [cell, shiftIn, hi, hlt]

theorem cell_shiftIn_succ (chk : Accum) (v : DataWord) {j : Nat} (hj : j < 5) :
    cell (shiftIn chk v) (j + 1) = cell chk j := by
  ext i hi
  have hbit : 5 * j + i < 25 := by omega
  have hlt : 5 * j + i < 32 := by omega
  have hword : v.getLsbD (5 * (j + 1) + i) = false := BitVec.getLsbD_of_ge _ _ (by omega)
  have hindex : 5 * (j + 1) + i - 5 = 5 * j + i := by omega
  have hlow : ¬ 5 * (j + 1) + i < 5 := by omega
  have hhigh : 5 * (j + 1) + i < 32 := by omega
  rw [cell, cell, BitVec.getElem_extractLsb', BitVec.getElem_extractLsb', BitVec.getLsbD_eq_getElem hlt]
  simp [shiftIn, mask_getElem hbit, hword, hindex, hlow, hhigh]

/-- A step is the shift and the feedback from 0. -/
theorem pmStep_eq_shiftIn_xor (chk : Accum) (v : DataWord) :
    pmStep chk v = shiftIn chk v ^^^ List.foldl (feedback (chk >>> 25)) 0#32 [0, 1, 2, 3, 4] :=
  calc pmStep chk v
    _ = List.foldl (feedback (0#32 ^^^ chk >>> 25)) (shiftIn chk v ^^^ 0#32) [0, 1, 2, 3, 4] := by
      rw [BitVec.xor_zero, BitVec.zero_xor, pmStep_eq_foldl]
    _ = shiftIn chk v ^^^ List.foldl (feedback (chk >>> 25)) 0#32 [0, 1, 2, 3, 4] := by
      rw [foldl_feedback_xor, foldl_feedback_zero]

/-- One round on cell `k` alone: `top` selects cell `k` of the constant. -/
def cellFeedback (top : DataWord) (k : Nat) (x : DataWord) (i : Fin 5) : DataWord :=
  if top.getLsbD i.val then x ^^^ cell genRom[i] k else x

/-- `top` is the top cell, and a round acts on each cell alone. -/
theorem cell_feedback (chk c : Accum) (i : Fin 5) (k : Nat) :
    cell (feedback (chk >>> 25) c i) k = cellFeedback (cell chk 5) k (cell c k) i := by
  have htop : (chk >>> 25).getLsbD i = (cell chk 5).getLsbD i := by simp [cell]
  rw [feedback, apply_ite (cell · k), cell_xor, htop, cellFeedback]

theorem cell_foldl_feedback (chk : Accum) (k : Nat) (rounds : List (Fin 5)) :
    cell (rounds.foldl (feedback (chk >>> 25)) 0#32) k = rounds.foldl (cellFeedback (cell chk 5) k) 0 := by
  rw [← List.foldl_hom (cell · k) fun c i => (cell_feedback chk c i k).symm]
  simp [cell]

theorem cell_pmStep (chk : Accum) (v : DataWord) (k : Nat) :
    cell (pmStep chk v) k = cell (shiftIn chk v) k ^^^ List.foldl (cellFeedback (cell chk 5) k) 0 [0, 1, 2, 3, 4] := by
  rw [pmStep_eq_shiftIn_xor, cell_xor, cell_foldl_feedback]

/-- Settles O30: XOR acts on each cell alone, so a cell after the step is its part of the shift and its part of the
feedback. -/
theorem stepShiftsSixCells : Obligations.StepShiftsSixCells := by
  rintro chk v - ⟨k, hk⟩
  refine (cell_pmStep chk v k).trans (congrArg (· ^^^ _) ?_)
  cases k with
  | zero => exact cell_shiftIn_zero chk v
  | succ j => exact cell_shiftIn_succ chk v (by omega)

end Sys2Proof.Machine

/-! # Proofs: the HRP expansion (42_hrp_expansion.md)

O32. The expansion by its three parts; then WB, element by element, after a store of the expansion. -/

namespace Sys2Proof.Machine

/-! ## The three parts of the expansion (R79) -/

section Expansion

variable {hrp : List Code} {i : Nat}

theorem expandHrp_getElem_of_lt (hi : i < hrp.length) :
    (expandHrp hrp)[i]'(by rw [expandHrp_length]; omega) = highPart hrp[i] := by
  simp [expandHrp, hi]

theorem expandHrp_getElem_of_eq (hi : i = hrp.length) :
    (expandHrp hrp)[i]'(by rw [expandHrp_length]; omega) = 0 := by
  simp [expandHrp, hi]

theorem expandHrp_getElem_of_gt (hlow : hrp.length < i) (hi : i < 2 * hrp.length + 1) :
    (expandHrp hrp)[i]'(by rwa [expandHrp_length]) = lowPart (hrp[i - hrp.length - 1]'(by omega)) := by
  have hpast : (hrp.map highPart ++ [0#5]).length ≤ i := by simp; omega
  simp [expandHrp, List.getElem_append_right hpast, Nat.sub_sub, -List.append_assoc]

end Expansion

/-! ## HRPX (R81) -/

/-- An element of WB after the expansion of the HRP is stored, whatever HLEN is. -/
theorem storeBuf_expandHrp_getElem (s : State) (i : Fin 256) :
    (storeBuf s.wb (expandHrp s.hrpInput))[i] =
      if i.val < s.hlen.toNat then highPart s.hb[i]
      else if i.val = s.hlen.toNat then 0
      else if i.val < 2 * s.hlen.toNat + 1 then
        lowPart (s.hb[i.val - s.hlen.toNat - 1]'(by have := i.isLt; omega))
      else s.wb[i] := by
  obtain ⟨i, hi⟩ := i
  have hlen := hrpInput_length s
  simp only [Fin.getElem_fin, storeBuf_getElem, expandHrp_length, hlen]
  obtain h | h | h := lt_trichotomy i s.hlen.toNat
  · rw [dif_pos (by omega), if_pos h, expandHrp_getElem_of_lt (hlen ▸ h), hrpInput_getElem]
  · rw [dif_pos (by omega), if_neg h.not_lt, if_pos h, expandHrp_getElem_of_eq (h.trans hlen.symm)]
  · rw [if_neg h.not_gt, if_neg h.ne']
    split
    · next hfit => simp [expandHrp_getElem_of_gt (hlen ▸ h) (hlen ▸ hfit), hrpInput_getElem]
    · rfl

theorem exec_hrpx_of_le {s : State} (h : s.hlen.toNat ≤ 127) :
    exec .hrpx s = .next { s with
      wb := storeBuf s.wb (expandHrp s.hrpInput)
      wlen := lengthReg (2 * s.hlen.toNat + 1)
      err := 0 } :=
  (execHrpx_cases s).elim (fun ⟨hlarge, _⟩ => absurd hlarge (by omega)) And.right

theorem exec_hrpx_of_ge {s : State} (h : 128 ≤ s.hlen.toNat) : exec .hrpx s = .next { s with wlen := 0, err := 9 } :=
  (execHrpx_cases s).elim And.right fun ⟨hsmall, _⟩ => absurd hsmall (by omega)

/-- Settles O32: the word is the command's own, no command has the others, and either side of the capacity check is one
update of the old state. -/
theorem hrpxWritesTheExpansion : Obligations.HrpxWritesTheExpansion :=
  ⟨runsWord_encodeCommand .hrpx, fun _ => rejectsWord_nonzeroArg (by decide),
    fun s h => ⟨_, exec_hrpx_of_le h, storeBuf_expandHrp_getElem s, lengthReg_toNat (by omega), rfl, rfl⟩,
    fun _ => exec_hrpx_of_ge⟩

end Sys2Proof.Machine

/-! # Proofs: the checksum family (43_checksum.md)

O33, O34, O36 and O37. CKCREATE and CKVERIFY on the sequences they read; then R84, as the six cells of the checksum read
back by six steps from 0, and the same of the machine. -/

namespace Sys2Proof.Machine

/-! ## CKCREATE and CKVERIFY (R85, R86) -/

theorem exec_ckcreate (s : State) : exec .ckcreate s = .next { s with
    chk := (createChecksum s.hrpInput s.wordInput).1
    cksum := (createChecksum s.hrpInput s.wordInput).2
    err := 0 } := rfl

theorem exec_ckverify (s : State) : exec .ckverify s = .next { s with
    chk := (verifyChecksum s.hrpInput s.wordInput).1
    valid := (verifyChecksum s.hrpInput s.wordInput).2
    err := 0 } := rfl

/-- Settles O33: the two sequences are the two inputs, and the update is the pair of `create_checksum`. -/
theorem ckcreateComputesTheChecksum : Obligations.CkcreateComputesTheChecksum := by
  refine ⟨runsWord_encodeCommand .ckcreate, fun _ => rejectsWord_nonzeroArg (by decide),
    fun s hrp payload hhrp hpayload => ?_⟩
  have hhrpInput : s.hrpInput = hrp := loadBuf_eq_of_sequenceIs hhrp
  have hwordInput : s.wordInput = payload := loadBuf_eq_of_sequenceIs hpayload
  rw [exec_ckcreate, hhrpInput, hwordInput]
  rfl

/-- Settles O34: the two sequences are the two inputs, and the update is the pair of `verify_checksum`. -/
theorem ckverifyChecksTheChecksum : Obligations.CkverifyChecksTheChecksum := by
  refine ⟨runsWord_encodeCommand .ckverify, fun _ => rejectsWord_nonzeroArg (by decide),
    fun s hrp words hhrp hwords => ?_⟩
  have hhrpInput : s.hrpInput = hrp := loadBuf_eq_of_sequenceIs hhrp
  have hwordInput : s.wordInput = words := loadBuf_eq_of_sequenceIs hwords
  rw [exec_ckverify, hhrpInput, hwordInput]
  rfl

/-! ## Six steps from 0 read the checksum words back (R61, R71) -/

/-- Below 2^25 the mask of R71 keeps everything, so the shift is a multiplication and the word the digit below. -/
theorem shiftIn_toNat {a : Accum} (h : a.toNat < 2 ^ 25) (v : DataWord) :
    (shiftIn a v).toNat = 2 ^ 5 * a.toNat + v.toNat := by
  have hmask : a.toNat &&& 0x01ffffff = a.toNat := (Nat.and_two_pow_sub_one_eq_mod _ 25).trans (Nat.mod_eq_of_lt h)
  have hxor : (shiftIn a v).toNat = (2 ^ 5 * a.toNat) ^^^ v.toNat := by
    have hv := v.isLt
    simp only [shiftIn, BitVec.toNat_xor, BitVec.toNat_shiftLeft, BitVec.toNat_and, BitVec.toNat_setWidth,
      BitVec.toNat_ofNat, Nat.reducePow, Nat.reduceMod, hmask, Nat.shiftLeft_eq]
    congr 1 <;> omega
  have hhigh : (2 ^ 5 * a.toNat ^^^ v.toNat) / 2 ^ 5 = a.toNat := by
    rw [Nat.xor_div_two_pow, Nat.mul_div_cancel_left _ (by decide), Nat.div_eq_of_lt v.isLt, Nat.xor_zero]
  have hlow : (2 ^ 5 * a.toNat ^^^ v.toNat) % 2 ^ 5 = v.toNat := by
    rw [Nat.xor_mod_two_pow, Nat.mul_mod_right, Nat.mod_eq_of_lt v.isLt, Nat.zero_xor]
  rw [hxor, ← Nat.div_add_mod (2 ^ 5 * a.toNat ^^^ v.toNat) (2 ^ 5), hhigh, hlow]

/-- Below 2^25 the top cell is 0, so a step is the shift alone. -/
theorem pmStep_eq_shiftIn {a : Accum} (h : a.toNat < 2 ^ 25) (v : DataWord) : pmStep a v = shiftIn a v := by
  have htop : a >>> 25 = 0#32 := BitVec.eq_of_toNat_eq (by simp [Nat.shiftRight_eq_div_pow]; omega)
  rw [pmStep_eq_foldl, htop, foldl_feedback_zero]

/-- A step from the cells of `mod` above checksum word `i` takes that word in. -/
theorem pmStep_checksumWord {mod : Accum} (hmod : mod.toNat < 2 ^ 30) {i : Nat} (hi : i < 6) :
    pmStep (mod >>> (5 * (6 - i))) (checksumWord mod i) = mod >>> (5 * (5 - i)) := by
  have habove : (mod >>> (5 * (6 - i))).toNat = mod.toNat / 2 ^ (5 * (5 - i)) / 2 ^ 5 := by
    rw [BitVec.toNat_ushiftRight, Nat.shiftRight_eq_div_pow, Nat.div_div_eq_div_mul, ← pow_add,
      show 5 * (5 - i) + 5 = 5 * (6 - i) by omega]
  have hsmall : (mod >>> (5 * (6 - i))).toNat < 2 ^ 25 := by
    have := Nat.div_le_self mod.toNat (2 ^ (5 * (5 - i)))
    rw [habove]
    omega
  apply BitVec.eq_of_toNat_eq
  rw [pmStep_eq_shiftIn hsmall, shiftIn_toNat hsmall, habove, checksumWord_toNat, BitVec.toNat_ushiftRight,
    Nat.shiftRight_eq_div_pow]
  exact Nat.div_add_mod _ (2 ^ 5)

/-- After the first `n` checksum words the accumulator holds the `n` top cells of `mod`. -/
theorem foldl_pmStep_checksumWord {mod : Accum} (hmod : mod.toNat < 2 ^ 30) {n : Nat} (hn : n ≤ 6) :
    ((List.range n).map (checksumWord mod)).foldl pmStep 0#32 = mod >>> (5 * (6 - n)) := by
  induction n with
  | zero => exact BitVec.eq_of_toNat_eq (by simp [Nat.shiftRight_eq_div_pow]; omega)
  | succ i ih =>
    rw [List.range_succ, List.map_append, List.foldl_append, ih (by omega)]
    exact (pmStep_checksumWord hmod hn).trans (by rw [show 6 - (i + 1) = 5 - i by omega])

/-- From 0 the checksum words of a 30-bit value give the value back. -/
theorem foldl_pmStep_checksumWords {mod : Accum} (hmod : mod.toNat < 2 ^ 30) :
    (checksumWords mod).foldl pmStep 0#32 = mod :=
  foldl_pmStep_checksumWord hmod (le_refl 6)

/-! ## A created checksum verifies (R84) -/

/-- A fold of steps is linear over XOR (R75): the words go to one accumulator and zeros to the other. -/
theorem foldl_pmStep_xor (a b : Accum) (ws : List DataWord) :
    ws.foldl pmStep (a ^^^ b) = (List.replicate ws.length 0#5).foldl pmStep a ^^^ ws.foldl pmStep b := by
  induction ws generalizing a b with
  | nil => rfl
  | cons w ws ih =>
    have hstep : pmStep (a ^^^ b) w = pmStep a 0#5 ^^^ pmStep b w := by rw [← pmStep_xor, BitVec.zero_xor]
    rw [List.foldl_cons, hstep, ih]
    rfl

/-- R84: in place of six zeros, which give the polymod `P`, the six words of `P XOR 1` give `P XOR (P XOR 1)`. -/
theorem polymod_createChecksum (hrp : List Code) (payload : List DataWord) :
    polymod (expandHrp hrp ++ (payload ++ checksumWords (createChecksum hrp payload).2)) = 1#32 := by
  obtain ⟨-, hmod⟩ := createChecksum_lt hrp payload
  calc polymod (expandHrp hrp ++ (payload ++ checksumWords (createChecksum hrp payload).2))
    _ = (checksumWords (createChecksum hrp payload).2).foldl pmStep (polymod (expandHrp hrp ++ payload) ^^^ 0#32) := by
      rw [← List.append_assoc, polymod_append, BitVec.xor_zero]
    _ = (createChecksum hrp payload).1 ^^^ (createChecksum hrp payload).2 := by
      rw [foldl_pmStep_xor, foldl_pmStep_checksumWords hmod, checksumWords_length, ← polymod_append]
      rfl
    _ = 1#32 := by
      rw [createChecksum, ← BitVec.xor_assoc, BitVec.xor_self, BitVec.zero_xor]

/-- Settles O36: the polymod of the sequence with its created checksum is 1, which is what verification asks for. -/
theorem createdChecksumVerifies : Obligations.CreatedChecksumVerifies := by
  intro hrp payload
  rw [verifyChecksum, polymod_createChecksum]
  rfl

/-! ## CKVERIFY accepts what CKCREATE made (R85) -/

/-- The words of a state that holds, after the words of another, the six fields of a checksum value. -/
theorem wordInput_eq_append {s u : State} {mod : Accum} (hwlen : u.wlen.toNat = s.wlen.toNat + 6)
    (hpayload : ∀ k : Fin 256, k.val < s.wlen.toNat → u.wb[k] = s.wb[k])
    (hfields : ∀ k : Fin 256, s.wlen.toNat ≤ k.val → k.val < u.wlen.toNat →
      u.wb[k] = checksumWord mod (k.val - s.wlen.toNat)) :
    u.wordInput = s.wordInput ++ checksumWords mod := by
  refine loadBuf_eq u.wlen.isLt.le (by simp [hwlen]) fun k hk => ?_
  by_cases hlt : k.val < s.wlen.toNat
  · rw [List.getElem?_append_left (by simpa using hlt), hpayload k hlt]
    simp [wordInput_getElem, hlt]
  · rw [List.getElem?_append_right (by simpa using hlt), wordInput_length,
      checksumWords_getElem? mod (by omega), hfields k (by omega) hk]

/-- Settles O37: CKVERIFY reads the HRP and the payload CKCREATE read, with the checksum words after them. -/
theorem ckverifyAcceptsWhatCkcreateMade : Obligations.CkverifyAcceptsWhatCkcreateMade := by
  intro s t u hcreate hhlen hhrp hwlen hpayload hfields
  obtain rfl : _ = t := Host.Outcome.next.inj ((exec_ckcreate s).symm.trans hcreate)
  have hhrpInput : u.hrpInput = s.hrpInput := by
    rw [State.hrpInput, hhlen]
    exact AgreeBelow.loadBuf_eq fun k hk => (hhrp k hk).symm
  have hwordInput : u.wordInput = s.wordInput ++ checksumWords (createChecksum s.hrpInput s.wordInput).2 :=
    wordInput_eq_append hwlen hpayload hfields
  rw [exec_ckverify, hhrpInput, hwordInput, createdChecksumVerifies]
  rfl

end Sys2Proof.Machine

/-! # Proofs: the encode family (44_encode.md)

O38, O39 and O40. ENCODE's outcome by its checks comes first; then the combined string, element by element; then the last
delimiter and the stages of DECODE on that string. -/

namespace Sys2Proof.Machine

/-! ## ENCODE by its checks (R90, R91) -/

/-- What every element of a sequence is, said of the list and of the buffer's indices. -/
theorem forall_mem_loadBuf_iff {w : Nat} {b : Buf w} {n : BitVec 8} (p : BitVec w → Prop) :
    (∀ c ∈ loadBuf b n.toNat, p c) ↔ ∀ k : Fin 256, k.val < n.toNat → p b[k] := by
  have hn := n.isLt
  simp only [List.forall_mem_iff_forall_getElem, loadBuf_getElem, loadBuf_length]
  exact ⟨fun h k hk => h k.val (by omega), fun h k hk => h ⟨k, by omega⟩ (hk.trans_le (min_le_left _ _))⟩

theorem State.hrpPrintable_iff {s : State} : s.HrpPrintable ↔ ∀ c ∈ s.hrpInput, isPrintable c = true := by
  simp only [isPrintable_iff]
  exact (forall_mem_loadBuf_iff fun c => 33 ≤ c.toNat ∧ c.toNat ≤ 126).symm

section Checks

variable {s : State}

theorem hrpInput_length_ne_zero_iff : s.hrpInput.length ≠ 0 ↔ s.hlen ≠ 0 := by
  rw [hrpInput_length]
  exact BitVec.toNat_ne_iff_ne (y := 0)

/-- ENCODE's checks, said of the state. -/
theorem encodeCheck_inputs_eq_none_iff : encodeCheck s.hrpInput s.wordInput = none ↔
    s.hlen ≠ 0 ∧ s.HrpPrintable ∧ s.hlen.toNat + s.wlen.toNat ≤ 248 := by
  rw [encodeCheck_eq_none_iff, hrpInput_length_ne_zero_iff, State.hrpPrintable_iff, hrpInput_length, wordInput_length]

theorem exec_encode_fails {k : ErrorKind} (h : encodeCheck s.hrpInput s.wordInput = some k) :
    exec .encode s = .next { s with slen := 0, err := errorCode k } := by
  simp only [exec, execEncode, h, State.encodeFails_eq]

theorem exec_encode_succeeds (h : encodeCheck s.hrpInput s.wordInput = none) :
    exec .encode s = .next s.encodeSucceeds := by
  simp only [exec, execEncode, h]

/-- The first check fails. -/
theorem exec_encode_of_empty (hempty : s.hlen = 0) : exec .encode s = .next { s with slen := 0, err := 5 } :=
  exec_encode_fails (k := .incorrectHrpSize) (if_pos (by simp [hempty]))

/-- The second check fails. -/
theorem exec_encode_of_unprintable (hne : s.hlen ≠ 0) (hprint : ¬ s.HrpPrintable) :
    exec .encode s = .next { s with slen := 0, err := 7 } := by
  have hany : s.hrpInput.any (fun c => !isPrintable c) = true := by simpa [State.hrpPrintable_iff] using hprint
  refine exec_encode_fails (k := .invalidCharacter) ?_
  rw [encodeCheck, if_neg (hrpInput_length_ne_zero_iff.2 hne), if_pos hany]

/-- The third check fails. -/
theorem exec_encode_of_overflow (hne : s.hlen ≠ 0) (hprint : s.HrpPrintable)
    (hlarge : 248 < s.hlen.toNat + s.wlen.toNat) : exec .encode s = .next { s with slen := 0, err := 9 } := by
  have hall : ¬ s.hrpInput.any (fun c => !isPrintable c) = true := by simpa [State.hrpPrintable_iff] using hprint
  have hcapacity : s.hrpInput.length + 1 + s.wordInput.length + 6 > maxCapacity := by
    rw [hrpInput_length, wordInput_length, maxCapacity]
    omega
  refine exec_encode_fails (k := .capacityExceeded) ?_
  rw [encodeCheck, if_neg (hrpInput_length_ne_zero_iff.2 hne), if_neg hall, if_pos hcapacity]

/-- An ENCODE that leaves 0 in ERR has passed the checks and is the success of R91. -/
theorem exec_encode_of_err_eq_zero {t : State} (h : exec .encode s = .next t) (herr : t.err = 0) :
    encodeCheck s.hrpInput s.wordInput = none ∧ t = s.encodeSucceeds := by
  obtain ⟨k, hk, -⟩ | ⟨hk, -⟩ := execEncode_cases s
  · obtain rfl := Host.Outcome.next.inj ((exec_encode_fails hk).symm.trans h)
    cases k <;> cases herr
  · exact ⟨hk, Host.Outcome.next.inj (h.symm.trans (exec_encode_succeeds hk))⟩

end Checks

/-! ## The combined string, element by element (R87) -/

section Elements

variable {hrp : List Code} {payload : List DataWord} {mod : Accum}

theorem combinedString_getElem?_of_lt {i : Nat} (hi : i < hrp.length) :
    (combinedString hrp payload mod)[i]? = some hrp[i] := by
  rw [combinedString, List.append_assoc, List.getElem?_append_left hi, List.getElem?_eq_getElem hi]

theorem combinedString_getElem?_length : (combinedString hrp payload mod)[hrp.length]? = some delimiter := by
  simp [combinedString]

/-- What follows the delimiter. -/
theorem combinedString_drop :
    (combinedString hrp payload mod).drop (hrp.length + 1) = (payload ++ checksumWords mod).map encChar :=
  List.drop_left' (by simp)

theorem combinedString_take : (combinedString hrp payload mod).take hrp.length = hrp := by
  simp [combinedString]

theorem combinedString_getElem?_of_gt {i : Nat} (hi : hrp.length < i) :
    (combinedString hrp payload mod)[i]? = (payload ++ checksumWords mod)[i - hrp.length - 1]?.map encChar := by
  rw [← List.getElem?_map, ← combinedString_drop (hrp := hrp), List.getElem?_drop,
    show hrp.length + 1 + (i - hrp.length - 1) = i by omega]

theorem combinedString_getElem?_payload {i : Nat} (hlow : hrp.length < i) (hhigh : i < hrp.length + 1 + payload.length) :
    (combinedString hrp payload mod)[i]? = some (encChar (payload[i - hrp.length - 1]'(by omega))) := by
  rw [combinedString_getElem?_of_gt hlow, List.getElem?_append_left (by omega), List.getElem?_eq_getElem (by omega),
    Option.map_some]

theorem combinedString_getElem?_checksum {i : Nat} (hlow : hrp.length + payload.length < i)
    (hhigh : i < hrp.length + payload.length + 7) :
    (combinedString hrp payload mod)[i]? = some (encChar (checksumWord mod (i - hrp.length - payload.length - 1))) := by
  rw [combinedString_getElem?_of_gt (by omega), List.getElem?_append_right (by omega), Nat.sub_right_comm,
    checksumWords_getElem? _ (by omega), Option.map_some]

end Elements

theorem storeBuf_getElem_of_getElem? {w : Nat} {b : Buf w} {xs : List (BitVec w)} {i : Nat} {a : BitVec w}
    (h : xs[i]? = some a) (hi : i < 256) : (storeBuf b xs)[i] = a := by
  obtain ⟨hlt, rfl⟩ := List.getElem?_eq_some_iff.1 h
  rw [storeBuf_getElem, dif_pos hlt]

/-- An element of SB after a successful ENCODE. -/
theorem encodeSucceeds_sb_getElem (s : State) (i : Fin 256) :
    s.encodeSucceeds.sb[i] =
      if i.val < s.hlen.toNat then s.hb[i]
      else if i.val = s.hlen.toNat then 0x31#8
      else if i.val < s.hlen.toNat + 1 + s.wlen.toNat then
        encChar (s.wb[i.val - s.hlen.toNat - 1]'(by have := i.isLt; omega))
      else if i.val < s.hlen.toNat + s.wlen.toNat + 7 then
        encChar (checksumWord s.encodeSucceeds.cksum (i.val - s.hlen.toNat - s.wlen.toNat - 1))
      else s.sb[i] := by
  obtain ⟨i, hi⟩ := i
  have hhlen := hrpInput_length s
  have hwlen := wordInput_length s
  simp only [State.encodeSucceeds_eq, Fin.getElem_fin, encodeString]
  split
  · next hlt => rw [storeBuf_getElem_of_getElem? (combinedString_getElem?_of_lt (by omega)), hrpInput_getElem]
  split
  · next heq => exact storeBuf_getElem_of_getElem? (by rw [heq, ← hhlen, combinedString_getElem?_length, delimiter]) hi
  split
  · next hlt =>
    rw [storeBuf_getElem_of_getElem? (combinedString_getElem?_payload (by omega) (by omega))]
    simp only [wordInput_getElem, hhlen]
  split
  · next hlt =>
    rw [storeBuf_getElem_of_getElem? (combinedString_getElem?_checksum (by omega) (by omega)), hhlen, hwlen]
  · next hge => rw [storeBuf_getElem, dif_neg (by simp; omega)]

/-! ## The string in SB after ENCODE (R91) -/

section Success

variable {s : State}

/-- ENCODE's capacity check leaves the length of the string in SLEN. -/
theorem encodeSucceeds_slen_toNat (h : encodeCheck s.hrpInput s.wordInput = none) :
    s.encodeSucceeds.slen.toNat = s.hlen.toNat + s.wlen.toNat + 7 := by
  obtain ⟨-, -, hfits⟩ := encodeCheck_inputs_eq_none_iff.1 h
  rw [State.encodeSucceeds_eq, encodeString_length, hrpInput_length, wordInput_length, lengthReg_toNat (by omega)]

/-- The string ENCODE leaves in SB is the one it built. -/
theorem encodeSucceeds_stringInput (h : encodeCheck s.hrpInput s.wordInput = none) :
    s.encodeSucceeds.stringInput = encodeString s.hrpInput s.wordInput := by
  have hslen := encodeSucceeds_slen_toNat h
  have hlen : s.encodeSucceeds.slen.toNat = (encodeString s.hrpInput s.wordInput).length := by simpa using hslen
  rw [State.stringInput, hlen]
  exact loadBuf_storeBuf s.sb _ (hlen ▸ s.encodeSucceeds.slen.isLt.le)

end Success

/-- Settles O38: each check that fails first gives its own outcome; when all pass, the string is stored and read off part by
part. -/
theorem encodeBuildsTheString : Obligations.EncodeBuildsTheString := by
  refine ⟨runsWord_encodeCommand .encode, fun _ => rejectsWord_nonzeroArg (by decide), ?_,
    fun _ => exec_encode_of_empty, fun _ => exec_encode_of_unprintable, fun _ => exec_encode_of_overflow⟩
  intro s hrp payload hhrp hpayload hpos hprint hfits
  have hhrpInput : s.hrpInput = hrp := loadBuf_eq_of_sequenceIs hhrp
  have hwordInput : s.wordInput = payload := loadBuf_eq_of_sequenceIs hpayload
  have hne : s.hlen ≠ 0 := by rintro h; simp [h] at hpos
  have hchecks := encodeCheck_inputs_eq_none_iff.2 ⟨hne, hprint, hfits⟩
  refine ⟨s.encodeSucceeds, exec_encode_succeeds hchecks, ?_, rfl, encodeSucceeds_sb_getElem s,
    encodeSucceeds_slen_toNat hchecks, rfl, by rw [State.encodeSucceeds_eq]⟩
  rw [← hhrpInput, ← hwordInput]
  rfl

/-! ## The last delimiter (R92, R96) -/

theorem stringInput_getElem?_eq_some_iff {s : State} {k : Nat} {c : Code} :
    s.stringInput[k]? = some c ↔ ∃ h : k < s.slen.toNat, s.sb[k]'(h.trans s.slen.isLt) = c := by
  simp only [List.getElem?_eq_some_iff, stringInput_getElem, stringInput_length]

/-- DECODE's third stage and the index at which a claim puts the delimiter. -/
theorem State.delimiterAt_iff {s : State} {pos : Fin 256} :
    s.DelimiterAt pos ↔ lastDelimiter s.stringInput = some pos.val := by
  simp only [lastDelimiter_eq_some_iff, ne_eq, stringInput_getElem?_eq_some_iff]
  constructor
  · rintro ⟨hpos, hdelim, hlast⟩
    exact ⟨⟨hpos, hdelim⟩, fun j hj ⟨hlt, hj'⟩ => hlast ⟨j, hlt.trans s.slen.isLt⟩ hj hlt hj'⟩
  · rintro ⟨⟨hpos, hdelim⟩, hlast⟩
    exact ⟨hpos, hdelim, fun k hk hlt hk' => hlast k.val hk ⟨hlt, hk'⟩⟩

/-- The delimiter after the HRP is the last one, since the alphabet has none. -/
theorem lastDelimiter_combinedString (hrp : List Code) (payload : List DataWord) (mod : Accum) :
    lastDelimiter (combinedString hrp payload mod) = some hrp.length := by
  refine lastDelimiter_eq_some_iff.2 ⟨combinedString_getElem?_length, fun j hj => ?_⟩
  rw [combinedString_getElem?_of_gt hj]
  intro h
  obtain ⟨v, -, hv⟩ := Option.map_eq_some_iff.1 h
  obtain ⟨-, -, hne⟩ := encChar_spec v
  exact hne hv

/-- Settles O39: the string's own last delimiter, and DEC undoing ENC at each character of the payload and the checksum. -/
theorem encodedStringReadsBack : Obligations.EncodedStringReadsBack := by
  intro s t h herr
  obtain ⟨hchecks, rfl⟩ := exec_encode_of_err_eq_zero h herr
  have hslen := encodeSucceeds_slen_toNat hchecks
  refine ⟨⟨⟨s.hlen.toNat, s.hlen.isLt⟩, rfl, ?_⟩, fun k hlow hhigh => ?_, fun k hlow hhigh => ?_⟩
  · rw [State.delimiterAt_iff, encodeSucceeds_stringInput hchecks, encodeString, lastDelimiter_combinedString,
      hrpInput_length]
  · have hlt : k.val - s.hlen.toNat - 1 < 256 := by omega
    refine ⟨s.wb[k.val - s.hlen.toNat - 1], Vector.getElem?_eq_getElem hlt, ?_⟩
    rw [encodeSucceeds_sb_getElem, if_neg hlow.not_gt, if_neg hlow.ne', if_pos hhigh, decChar_encChar]
  · rw [encodeSucceeds_sb_getElem, if_neg (by omega), if_neg (by omega), if_neg (by omega), if_pos (hslen ▸ hhigh),
      decChar_encChar]

/-! ## The stages of DECODE on the combined string (R93 to R102) -/

/-- A string that passes stages 1 to 6 comes to the checksum. -/
theorem decodeString_eq_decodeVerify {str : List Code} {pos : Nat} {words : List DataWord} (hlen : str.length ≤ 90)
    (hprint : ∀ c ∈ str, isPrintable c = true) (hcase : ¬ (str.any isLower = true ∧ str.any isUpper = true))
    (hdelim : lastDelimiter str = some pos) (hpos : 1 ≤ pos) (hdata : pos + 7 ≤ str.length)
    (hwords : mapCharacters (str.drop (pos + 1)) = some words) :
    decodeString str = decodeVerify (str.take pos) words := by
  have hall : ¬ str.any (fun c => !isPrintable c) = true := by simpa using hprint
  simp only [decodeString, maxLen, if_neg hlen.not_gt, if_neg hall, Bool.and_eq_true, if_neg hcase, hdelim, decodeAt,
    if_neg hpos.not_gt, if_neg hdata.not_gt, hwords]

/-- Stage 6 reads the words of alphabet characters back. -/
theorem mapCharacters_map_encChar (ws : List DataWord) : mapCharacters (ws.map encChar) = some ws := by
  refine mapCharacters_eq_some_iff.2 ⟨?_, ?_⟩
  · intro c hc
    obtain ⟨v, -, rfl⟩ := List.mem_map.1 hc
    rw [decChar_encChar]
    exact (dataWord_in_dec v).1
  · rw [List.map_map]
    exact (List.map_id'' (fun v => by simp) ws).symm

/-- What holds of the HRP's characters, the delimiter and the alphabet holds of the combined string's characters. -/
theorem forall_mem_combinedString {hrp : List Code} {payload : List DataWord} {mod : Accum} {p : Code → Prop}
    (hhrp : ∀ c ∈ hrp, p c) (hdelim : p delimiter) (halphabet : ∀ v, p (encChar v)) :
    ∀ c ∈ combinedString hrp payload mod, p c := by
  intro c hc
  rw [combinedString, List.mem_append, List.mem_append, List.mem_singleton, List.mem_map] at hc
  obtain (hc | rfl) | ⟨v, -, rfl⟩ := hc
  · exact hhrp c hc
  · exact hdelim
  · exact halphabet v

/-- Stages 7 to 9 on an HRP without upper-case letters and a payload with its created checksum. -/
theorem decodeVerify_created {hrp : List Code} (payload : List DataWord) (hupper : ∀ c ∈ hrp, isUpper c = false) :
    decodeVerify hrp (payload ++ checksumWords (createChecksum hrp payload).2) = .decoded hrp payload 1#32 := by
  simp only [decodeVerify, lowercase_eq_self hupper, createdChecksumVerifies hrp payload]
  simp

/-- All nine stages pass on an encoded string of at most 90 characters whose HRP has no upper-case letter. -/
theorem decodeString_encodeString {hrp : List Code} {payload : List DataWord} (hne : hrp.length ≠ 0)
    (hprint : ∀ c ∈ hrp, isPrintable c = true) (hupper : ∀ c ∈ hrp, isUpper c = false)
    (hlen : (encodeString hrp payload).length ≤ 90) :
    decodeString (encodeString hrp payload) = .decoded hrp payload 1#32 := by
  have hprintable : ∀ c ∈ encodeString hrp payload, isPrintable c = true :=
    forall_mem_combinedString hprint (by decide) fun v => (encChar_spec v).1
  have hnoUpper : ∀ c ∈ encodeString hrp payload, isUpper c = false :=
    forall_mem_combinedString hupper (by decide) fun v => (encChar_spec v).2.1
  have hcase : ¬ ((encodeString hrp payload).any isLower = true ∧ (encodeString hrp payload).any isUpper = true) :=
    fun ⟨_, hany⟩ => by
      obtain ⟨c, hc, hc'⟩ := List.any_eq_true.1 hany
      rw [hnoUpper c hc] at hc'
      cases hc'
  rw [decodeString_eq_decodeVerify hlen hprintable hcase (lastDelimiter_combinedString _ _ _) (by omega) (by simp)
    (words := payload ++ checksumWords (createChecksum hrp payload).2), encodeString, combinedString_take,
    decodeVerify_created payload hupper]
  rw [encodeString, combinedString_drop, mapCharacters_map_encChar]

/-! ## DECODE after ENCODE (R93) -/

theorem exec_decode_of_decoded {s : State} {hrp : List Code} {payload : List DataWord} {p : Accum}
    (h : decodeString s.stringInput = .decoded hrp payload p) : exec .decode s = .next (s.decodeSucceeds hrp payload p) := by
  simp only [exec, execDecode, h]

/-- A buffer after the sequence of another is stored in it. -/
theorem storeBuf_loadBuf_getElem {w : Nat} (b b' : Buf w) (n : BitVec 8) (k : Fin 256) :
    (storeBuf b' (loadBuf b n.toNat))[k] = if k.val < n.toNat then b[k] else b'[k] := by
  have hn := n.isLt
  have hlen : (loadBuf b n.toNat).length = n.toNat := by rw [loadBuf_length]; omega
  simp only [Fin.getElem_fin, storeBuf_getElem, loadBuf_getElem, hlen]
  split <;> rfl

/-- A length register takes its own value back. -/
theorem lengthReg_toNat_eq_self (n : BitVec 8) : lengthReg n.toNat = n :=
  (BitVec.ofNat_toNat 8 n).trans (BitVec.setWidth_eq n)

/-- Settles O40: `u` holds ENCODE's string, every stage passes on it, and DECODE stores the HRP and the payload it was built
from. -/
theorem decodeUndoesEncode : Obligations.DecodeUndoesEncode := by
  intro s t u h herr hlen hupper hslen hsb
  obtain ⟨hchecks, rfl⟩ := exec_encode_of_err_eq_zero h herr
  obtain ⟨hne, hprint, -⟩ := encodeCheck_eq_none_iff.1 hchecks
  have hnoUpper : ∀ c ∈ s.hrpInput, isUpper c = false := by
    simp only [← Bool.not_eq_true, isUpper_iff]
    exact (forall_mem_loadBuf_iff fun c => ¬ (65 ≤ c.toNat ∧ c.toNat ≤ 90)).2 hupper
  have hstring : u.stringInput = encodeString s.hrpInput s.wordInput := by
    rw [← encodeSucceeds_stringInput hchecks, State.stringInput, hslen, hsb.loadBuf_eq, State.stringInput]
  have hdecode : decodeString u.stringInput = .decoded s.hrpInput s.wordInput 1#32 := by
    rw [hstring]
    refine decodeString_encodeString hne hprint hnoUpper ?_
    rw [← encodeSucceeds_stringInput hchecks, stringInput_length]
    exact hlen
  refine ⟨_, exec_decode_of_decoded hdecode, ?_, storeBuf_loadBuf_getElem s.hb u.hb s.hlen, ?_,
    storeBuf_loadBuf_getElem s.wb u.wb s.wlen, rfl, rfl, rfl, rfl⟩
  · rw [State.decodeSucceeds_eq, hrpInput_length, lengthReg_toNat_eq_self]
  · rw [State.decodeSucceeds_eq, wordInput_length, lengthReg_toNat_eq_self]

end Sys2Proof.Machine

/-! # Proofs: the decode family (45_decode.md)

O41 to O50. What the stages reject, string by string, comes first; then the same of a state, stage by stage; then case, the
two outcomes of the checksum, and what holds of an accepted string. -/

namespace Sys2Proof.Machine

/-! ## What the stages reject (R94 to R99) -/

/-- Stages 1 and 2 pass on the string. -/
structure Scans (str : List Code) : Prop where
  short : str.length ≤ 90
  printable : ∀ c ∈ str, isPrintable c = true
  oneCase : ¬ (str.any isLower = true ∧ str.any isUpper = true)

/-- Stages 1 to 5 pass on the string, with the last delimiter at `pos`. -/
structure Splits (str : List Code) (pos : Nat) : Prop extends Scans str where
  last : lastDelimiter str = some pos
  hrpSize : 1 ≤ pos
  dataSize : pos + 7 ≤ str.length

/-- A stage before the checksum rejects the string with the kind: the earlier stages pass and this one's condition fails. -/
inductive Rejects (str : List Code) : ErrorKind → Prop
  | tooLong (hlong : 90 < str.length) : Rejects str .stringLengthExceeded
  | unprintable (hshort : str.length ≤ 90) (hprint : ¬ ∀ c ∈ str, isPrintable c = true) :
      Rejects str .nonPrintableCharacter
  | mixedCase (hshort : str.length ≤ 90) (hprint : ∀ c ∈ str, isPrintable c = true)
      (hcase : str.any isLower = true ∧ str.any isUpper = true) : Rejects str .invalidCase
  | noDelimiter (hscan : Scans str) (hnone : lastDelimiter str = none) : Rejects str .noChecksumMarker
  | emptyHrp (hscan : Scans str) (hlast : lastDelimiter str = some 0) : Rejects str .incorrectHrpSize
  | shortData {pos : Nat} (hscan : Scans str) (hlast : lastDelimiter str = some pos) (hpos : 1 ≤ pos)
      (hdata : str.length < pos + 7) : Rejects str .incorrectChecksumSize
  | badCharacter {pos : Nat} (hsplit : Splits str pos) (hbad : mapCharacters (str.drop (pos + 1)) = none) :
      Rejects str .invalidCharacter

section Stages

variable {str : List Code} {pos : Nat} {k : ErrorKind} {words : List DataWord}

/-- A string that passes stages 1 and 2 comes to the delimiter. -/
theorem Scans.decodeString_eq (h : Scans str) :
    decodeString str = (lastDelimiter str).elim (.failed .noChecksumMarker) (decodeAt str) := by
  obtain ⟨hshort, hprint, hcase⟩ := h
  have hall : ¬ str.any (fun c => !isPrintable c) = true := by simpa using hprint
  simp only [decodeString, maxLen, if_neg hshort.not_gt, if_neg hall, Bool.and_eq_true, if_neg hcase]
  cases lastDelimiter str <;> rfl

theorem Rejects.decodeString_eq (h : Rejects str k) : decodeString str = .failed k := by
  cases h with
  | tooLong hlong => rw [decodeString, maxLen, if_pos hlong]
  | unprintable hshort hprint =>
    rw [decodeString, maxLen, if_neg hshort.not_gt, if_pos (by simpa using hprint)]
  | mixedCase hshort hprint hcase =>
    rw [decodeString, maxLen, if_neg hshort.not_gt, if_neg (by simpa using hprint), if_pos (by simpa using hcase)]
  | noDelimiter hscan hnone => rw [hscan.decodeString_eq, hnone]; rfl
  | emptyHrp hscan hlast => rw [hscan.decodeString_eq, hlast]; rfl
  | shortData hscan hlast hpos hdata =>
    rw [hscan.decodeString_eq, hlast, Option.elim_some, decodeAt, if_neg hpos.not_gt, if_pos hdata]
  | badCharacter hsplit hbad =>
    rw [hsplit.toScans.decodeString_eq, hsplit.last, Option.elim_some, decodeAt, if_neg hsplit.hrpSize.not_gt,
      if_neg hsplit.dataSize.not_gt, hbad]

theorem Splits.decodeString_eq (h : Splits str pos) (hwords : mapCharacters (str.drop (pos + 1)) = some words) :
    decodeString str = decodeVerify (str.take pos) words :=
  decodeString_eq_decodeVerify h.short h.printable h.oneCase h.last h.hrpSize h.dataSize hwords

/-- A string that passes stages 1 and 2 is rejected by a later stage or comes to the checksum. -/
theorem Scans.rejects_or_splits (h : Scans str) :
    (∃ k, Rejects str k) ∨ ∃ pos words, Splits str pos ∧ mapCharacters (str.drop (pos + 1)) = some words := by
  cases hlast : lastDelimiter str with
  | none => exact .inl ⟨_, .noDelimiter h hlast⟩
  | some pos =>
    obtain rfl | hpos := Nat.eq_zero_or_pos pos
    · exact .inl ⟨_, .emptyHrp h hlast⟩
    obtain hdata | hdata := Nat.lt_or_ge str.length (pos + 7)
    · exact .inl ⟨_, .shortData h hlast hpos hdata⟩
    have hsplit : Splits str pos := ⟨h, hlast, hpos, hdata⟩
    cases hwords : mapCharacters (str.drop (pos + 1)) with
    | none => exact .inl ⟨_, .badCharacter hsplit hwords⟩
    | some words => exact .inr ⟨pos, words, hsplit, hwords⟩

/-- Every string is rejected by a stage before the checksum or comes to the checksum. -/
theorem rejects_or_splits (str : List Code) :
    (∃ k, Rejects str k) ∨ ∃ pos words, Splits str pos ∧ mapCharacters (str.drop (pos + 1)) = some words := by
  obtain hlong | hshort := Nat.lt_or_ge 90 str.length
  · exact .inl ⟨_, .tooLong hlong⟩
  by_cases hprint : ∀ c ∈ str, isPrintable c = true
  · by_cases hcase : str.any isLower = true ∧ str.any isUpper = true
    · exact .inl ⟨_, .mixedCase hshort hprint hcase⟩
    · exact Scans.rejects_or_splits ⟨hshort, hprint, hcase⟩
  · exact .inl ⟨_, .unprintable hshort hprint⟩

theorem decodeVerify_of_eq {hrpPart : List Code} (h : polymod (expandHrp (lowercase hrpPart) ++ words) = 1#32) :
    decodeVerify hrpPart words = .decoded (lowercase hrpPart) (words.take (words.length - 6)) 1#32 := by
  simp [decodeVerify, verifyChecksum, h]

theorem decodeVerify_of_ne {hrpPart : List Code} (h : polymod (expandHrp (lowercase hrpPart) ++ words) ≠ 1#32) :
    decodeVerify hrpPart words = .mismatch (polymod (expandHrp (lowercase hrpPart) ++ words)) := by
  simp [decodeVerify, verifyChecksum, h]

/-- The checksum fails with no kind of an earlier stage. -/
theorem decodeVerify_ne_failed (hrpPart : List Code) : decodeVerify hrpPart words ≠ .failed k := by
  by_cases h : polymod (expandHrp (lowercase hrpPart) ++ words) = 1#32
  · simp [decodeVerify_of_eq h]
  · simp [decodeVerify_of_ne h]

/-- A failure before the polymod is the rejection by exactly that stage. -/
theorem decodeString_eq_failed_iff : decodeString str = .failed k ↔ Rejects str k := by
  refine ⟨fun h => ?_, Rejects.decodeString_eq⟩
  obtain ⟨k', hk'⟩ | ⟨pos, words, hsplit, hwords⟩ := rejects_or_splits str
  · obtain rfl := DecodeResult.failed.inj (hk'.decodeString_eq.symm.trans h)
    exact hk'
  · exact absurd ((hsplit.decodeString_eq hwords).symm.trans h) (decodeVerify_ne_failed _)

end Stages

/-! ## DECODE by the stages' outcome (R103) -/

section Outcomes

variable {s : State} {k : ErrorKind}

theorem exec_decode_of_rejects (h : Rejects s.stringInput k) :
    exec .decode s = .next { s with err := errorCode k, valid := false, hlen := 0, wlen := 0 } := by
  simp only [exec, execDecode, h.decodeString_eq, State.decodeFails_eq]

theorem exec_decode_of_mismatch {p : Accum} (h : decodeString s.stringInput = .mismatch p) :
    exec .decode s = .next { s with err := 8, valid := false, hlen := 0, wlen := 0, chk := p } := by
  simp only [exec, execDecode, h]
  rfl

theorem errorCode_ne_zero (k : ErrorKind) : errorCode k ≠ 0 := by
  intro hzero
  have hcode := (errorCode_range k).1
  simp [hzero] at hcode

/-- The code in ERR of a kind of stages 1 to 6 is the rejection by that stage. -/
theorem exec_decode_rejects_of_err (s : State) :
    ∃ t, exec .decode s = .next t ∧ ∀ k, k ≠ .checksumMismatch → t.err = errorCode k → Rejects s.stringInput k := by
  cases h : decodeString s.stringInput with
  | failed k' =>
    have hrejects := decodeString_eq_failed_iff.1 h
    exact ⟨_, exec_decode_of_rejects hrejects, fun k _ herr => errorCode_injective herr ▸ hrejects⟩
  | mismatch p =>
    exact ⟨_, exec_decode_of_mismatch h, fun k hk herr =>
      absurd (errorCode_injective (k := k) (k' := .checksumMismatch) herr.symm) hk⟩
  | decoded hrp payload p =>
    exact ⟨_, exec_decode_of_decoded h, fun k _ herr => absurd herr.symm (errorCode_ne_zero k)⟩

end Outcomes

/-! ## The stages' conditions, said of the state (R94 to R99) -/

theorem exists_mem_loadBuf_iff {w : Nat} {b : Buf w} {n : BitVec 8} (p : BitVec w → Prop) :
    (∃ c ∈ loadBuf b n.toNat, p c) ↔ ∃ k : Fin 256, k.val < n.toNat ∧ p b[k] := by
  simpa using not_congr (forall_mem_loadBuf_iff (b := b) (n := n) fun c => ¬ p c)

section Conditions

variable {s : State} {pos : Nat}

theorem State.stringPrintable_iff : s.StringPrintable ↔ ∀ c ∈ s.stringInput, isPrintable c = true := by
  simp only [isPrintable_iff]
  exact (forall_mem_loadBuf_iff fun c => 33 ≤ c.toNat ∧ c.toNat ≤ 126).symm

theorem State.stringMixesCase_iff :
    s.StringMixesCase ↔ s.stringInput.any isLower = true ∧ s.stringInput.any isUpper = true := by
  simp only [List.any_eq_true, isLower_iff, isUpper_iff]
  exact and_congr (exists_mem_loadBuf_iff fun c => 97 ≤ c.toNat ∧ c.toNat ≤ 122).symm
    (exists_mem_loadBuf_iff fun c => 65 ≤ c.toNat ∧ c.toNat ≤ 90).symm

theorem scans_stringInput_iff :
    Scans s.stringInput ↔ s.slen.toNat ≤ 90 ∧ s.StringPrintable ∧ ¬ s.StringMixesCase := by
  rw [State.stringPrintable_iff, State.stringMixesCase_iff, ← stringInput_length]
  exact ⟨fun h => ⟨h.short, h.printable, h.oneCase⟩, fun ⟨hshort, hprint, hcase⟩ => ⟨hshort, hprint, hcase⟩⟩

theorem State.lastDelimiter_eq_none_iff :
    lastDelimiter s.stringInput = none ↔ ∀ k : Fin 256, k.val < s.slen.toNat → s.sb[k] ≠ 0x31#8 := by
  rw [Machine.lastDelimiter_eq_none_iff]
  exact forall_mem_loadBuf_iff (· ≠ delimiter)

theorem State.SplitsAt.scans {pos : Fin 256} (h : s.SplitsAt pos) : Scans s.stringInput := by
  obtain ⟨hshort, hprint, hcase, -⟩ := h
  exact scans_stringInput_iff.2 ⟨hshort, hprint, hcase⟩

theorem State.SplitsAt.lastDelimiter_eq {pos : Fin 256} (h : s.SplitsAt pos) :
    lastDelimiter s.stringInput = some pos.val := by
  obtain ⟨-, -, -, hlast⟩ := h
  exact State.delimiterAt_iff.1 hlast

theorem State.SplitsAt.splits {pos : Fin 256} (h : s.SplitsAt pos) (hpos : 1 ≤ pos.val)
    (hdata : pos.val + 7 ≤ s.slen.toNat) : Splits s.stringInput pos.val :=
  ⟨h.scans, h.lastDelimiter_eq, hpos, by rwa [stringInput_length]⟩

/-- What every character after index `pos` is, said of the string and of the buffer's indices. -/
theorem forall_mem_drop_stringInput_iff (p : Code → Prop) :
    (∀ c ∈ s.stringInput.drop (pos + 1), p c) ↔ ∀ k : Fin 256, pos < k.val → k.val < s.slen.toNat → p s.sb[k] := by
  have hlt := s.slen.isLt
  simp only [List.forall_mem_iff_forall_getElem, List.getElem_drop, List.length_drop, stringInput_getElem,
    stringInput_length]
  constructor
  · intro h k hlow hhigh
    simpa [show pos + 1 + (k.val - pos - 1) = k.val by omega] using h (k.val - pos - 1) (by omega)
  · exact fun h i hi => h ⟨pos + 1 + i, by omega⟩ (by simp; omega) (by simp; omega)

theorem mapCharacters_stringInput_eq_none_iff : mapCharacters (s.stringInput.drop (pos + 1)) = none ↔
    ∃ k : Fin 256, pos < k.val ∧ k.val < s.slen.toNat ∧ decChar s.sb[k] = 0xFF#8 := by
  rw [mapCharacters_eq_none_iff]
  simpa [sentinel] using not_congr (forall_mem_drop_stringInput_iff (s := s) (pos := pos) fun c => decChar c ≠ sentinel)

end Conditions

/-! ## Stages 1 to 6 -/

/-- Settles O41: the first stage rejects for its length alone, and its kind is no other stage's. -/
theorem decodeRejectsLongStrings : Obligations.DecodeRejectsLongStrings := by
  intro s
  refine ⟨fun hlong => exec_decode_of_rejects (.tooLong (by rwa [stringInput_length])), fun hshort => ?_⟩
  obtain ⟨t, ht, hrejects⟩ := exec_decode_rejects_of_err s
  refine ⟨t, ht, fun herr => ?_⟩
  cases hrejects .stringLengthExceeded (by decide) herr with
  | tooLong hlong => exact hshort.not_gt (stringInput_length s ▸ hlong)

/-- Settles O42: printability is asked of the whole string before case is. -/
theorem decodeRejectsUnprintableThenMixedCase : Obligations.DecodeRejectsUnprintableThenMixedCase := by
  intro s hslen
  have hshort : s.stringInput.length ≤ 90 := (stringInput_length s).trans_le hslen
  simp only [State.stringPrintable_iff, State.stringMixesCase_iff]
  refine ⟨fun hprint => exec_decode_of_rejects (.unprintable hshort hprint),
    fun hprint hcase => exec_decode_of_rejects (.mixedCase hshort hprint hcase), fun hprint hcase => ?_⟩
  obtain ⟨t, ht, hrejects⟩ := exec_decode_rejects_of_err s
  refine ⟨t, ht, fun herr => ?_, fun herr => ?_⟩
  · cases hrejects .nonPrintableCharacter (by decide) herr with
    | unprintable _ hprint' => exact hprint' hprint
  · cases hrejects .invalidCase (by decide) herr with
    | mixedCase _ _ hcase' => exact hcase hcase'

/-- Settles O43: the third stage rejects exactly when no index holds the delimiter. -/
theorem decodeRejectsMissingDelimiter : Obligations.DecodeRejectsMissingDelimiter := by
  intro s hshort hprint hcase
  have hscan := scans_stringInput_iff.2 ⟨hshort, hprint, hcase⟩
  refine ⟨fun hnone => exec_decode_of_rejects (.noDelimiter hscan (State.lastDelimiter_eq_none_iff.2 hnone)), ?_⟩
  rintro ⟨k, hk, hdelim⟩
  obtain ⟨t, ht, hrejects⟩ := exec_decode_rejects_of_err s
  refine ⟨t, ht, fun herr => ?_⟩
  cases hrejects .noChecksumMarker (by decide) herr with
  | noDelimiter _ hnone => exact State.lastDelimiter_eq_none_iff.1 hnone k hk hdelim

/-- Settles O44: both sizes are asked of the one position that is the last delimiter's. -/
theorem decodeRejectsEmptyHrpThenShortData : Obligations.DecodeRejectsEmptyHrpThenShortData := by
  intro s pos hsplit
  have hscan := hsplit.scans
  have hlast := hsplit.lastDelimiter_eq
  have hlen := stringInput_length s
  refine ⟨fun hempty => ?_, fun hpos hshort => ?_, fun hpos hdata => ?_⟩
  · rw [show pos.val = 0 by omega] at hlast
    exact exec_decode_of_rejects (.emptyHrp hscan hlast)
  · exact exec_decode_of_rejects (.shortData hscan hlast hpos (by omega))
  obtain ⟨t, ht, hrejects⟩ := exec_decode_rejects_of_err s
  refine ⟨t, ht, fun herr => ?_, fun herr => ?_⟩
  · cases hrejects .incorrectHrpSize (by decide) herr with
    | emptyHrp _ hlast' =>
      have heq := Option.some.inj (hlast.symm.trans hlast')
      omega
  · cases hrejects .incorrectChecksumSize (by decide) herr with
    | shortData _ hlast' _ hshort =>
      have heq := Option.some.inj (hlast.symm.trans hlast')
      omega

/-- Settles O45: the sixth stage rejects exactly when a character after the last delimiter has no value. -/
theorem decodeRejectsBadDataCharacter : Obligations.DecodeRejectsBadDataCharacter := by
  intro s pos hsplit hpos hdata
  refine ⟨fun hbad => exec_decode_of_rejects
    (.badCharacter (hsplit.splits hpos hdata) (mapCharacters_stringInput_eq_none_iff.2 hbad)), fun hgood => ?_⟩
  obtain ⟨t, ht, hrejects⟩ := exec_decode_rejects_of_err s
  refine ⟨t, ht, fun herr => ?_⟩
  cases hrejects .invalidCharacter (by decide) herr with
  | badCharacter hsplit' hbad =>
    have heq := Option.some.inj (hsplit.lastDelimiter_eq.symm.trans hsplit'.last)
    obtain ⟨k, hlow, hhigh, hk⟩ := mapCharacters_stringInput_eq_none_iff.1 hbad
    exact hgood k (heq ▸ hlow) hhigh hk

/-- Settles O48: the kinds before the checksum have the codes 1 to 7, the checksum's is 8, and a failure writes no buffer. -/
theorem decodeSucceedsOrFailsWithOneKind : Obligations.DecodeSucceedsOrFailsWithOneKind := by
  intro s
  cases h : decodeString s.stringInput with
  | failed k =>
    have hcode := decodeString_failed_code h
    exact ⟨_, exec_decode_of_rejects (decodeString_eq_failed_iff.1 h),
      .inr ⟨rfl, (errorCode_range k).1, by simp; omega, rfl, rfl, rfl, rfl⟩⟩
  | mismatch p =>
    exact ⟨_, exec_decode_of_mismatch h,
      .inr ⟨rfl, (errorCode_range .checksumMismatch).1, le_refl 8, rfl, rfl, rfl, rfl⟩⟩
  | decoded hrp payload p =>
    obtain ⟨-, -, -, pos, words, -, -, -, -, -, -, hp, -⟩ := decodeString_eq_decoded h
    exact ⟨_, exec_decode_of_decoded h, .inl ⟨rfl, rfl, hp⟩⟩

/-! ## Case (R11, R67, R105) -/

theorem isPrintable_fold (c : Code) : isPrintable (fold c) = isPrintable c := by
  revert c; decide

theorem fold_eq_delimiter_iff (c : Code) : fold c = delimiter ↔ c = delimiter := by
  revert c; decide

theorem decChar_fold (c : Code) : decChar (fold c) = decChar c := by
  revert c; decide +kernel

theorem isUpper_of_mem_lowercase {str : List Code} {c : Code} (h : c ∈ lowercase str) : isUpper c = false := by
  obtain ⟨d, -, rfl⟩ := List.mem_map.1 h
  exact isUpper_fold d

theorem any_isUpper_lowercase (str : List Code) : (lowercase str).any isUpper = false :=
  List.any_eq_false.2 fun c hc => by simp [isUpper_of_mem_lowercase hc]

@[simp] theorem lowercase_lowercase (str : List Code) : lowercase (lowercase str) = lowercase str :=
  lowercase_eq_self fun _ => isUpper_of_mem_lowercase

theorem lastDelimiter_lowercase (str : List Code) : lastDelimiter (lowercase str) = lastDelimiter str := by
  induction str with
  | nil => rfl
  | cons c cs ih =>
    rw [lowercase, List.map_cons, ← lowercase]
    simp only [lastDelimiter, ih, fold_eq_delimiter_iff]

theorem mapCharacters_lowercase (cs : List Code) : mapCharacters (lowercase cs) = mapCharacters cs := by
  induction cs with
  | nil => rfl
  | cons c cs ih =>
    rw [lowercase, List.map_cons, ← lowercase]
    simp only [mapCharacters, ih, decChar_fold]

theorem lowercase_take (str : List Code) (n : Nat) : lowercase (str.take n) = (lowercase str).take n :=
  List.map_take

theorem lowercase_drop (str : List Code) (n : Nat) : lowercase (str.drop n) = (lowercase str).drop n :=
  List.map_drop

/-- The checksum is computed from the lower-cased HRP. -/
theorem decodeVerify_lowercase (hrpPart : List Code) (words : List DataWord) :
    decodeVerify (lowercase hrpPart) words = decodeVerify hrpPart words := by
  simp only [decodeVerify, lowercase_lowercase]

theorem decodeAt_lowercase (str : List Code) (pos : Nat) : decodeAt (lowercase str) pos = decodeAt str pos := by
  simp only [decodeAt, lowercase_length, ← lowercase_take, ← lowercase_drop, mapCharacters_lowercase,
    decodeVerify_lowercase]

/-- Case is lost after stage 2: a string of one case and its lower-case form decode alike. -/
theorem decodeString_lowercase {str : List Code} (hcase : ¬ (str.any isLower = true ∧ str.any isUpper = true)) :
    decodeString (lowercase str) = decodeString str := by
  have hprint : (lowercase str).any (fun c => !isPrintable c) = str.any fun c => !isPrintable c := by
    simp [lowercase, Function.comp_def, isPrintable_fold]
  have hcase' : (str.any isLower && str.any isUpper) = false := by simpa using hcase
  simp only [decodeString, lowercase_length, hprint, any_isUpper_lowercase, Bool.and_false, hcase',
    lastDelimiter_lowercase, decodeAt_lowercase]

/-- Two states that differ in SB only, and whose strings decode alike, differ in SB only after DECODE. -/
theorem exec_decode_setSb {s : State} {b : Buf 8}
    (h : decodeString (s.setSb b).stringInput = decodeString s.stringInput) :
    ∃ t, exec .decode s = .next t ∧ exec .decode (s.setSb b) = .next (t.setSb b) := by
  simp only [exec, execDecode, h]
  cases decodeString s.stringInput with
  | failed k => exact ⟨_, rfl, rfl⟩
  | mismatch p => exact ⟨_, rfl, rfl⟩
  | decoded hrp payload p => exact ⟨_, rfl, rfl⟩

/-- The upper-case form of a code, as R105 describes it. -/
def upperForm (c : Code) : Code := if 97 ≤ c.toNat ∧ c.toNat ≤ 122 then c - 32#8 else c

theorem isLower_upperForm (c : Code) : isLower (upperForm c) = false := by
  revert c; decide

theorem fold_upperForm {c : Code} : ¬ (65 ≤ c.toNat ∧ c.toNat ≤ 90) → fold (upperForm c) = c := by
  revert c; decide

/-- Settles O50: the upper-case form has one case, and its lower-case form is the string itself. -/
theorem decodeIgnoresUniformCase : Obligations.DecodeIgnoresUniformCase := by
  intro s upper hlower hupper
  have hstring : (s.setSb upper).stringInput = s.stringInput.map upperForm :=
    loadBuf_eq s.slen.isLt.le (by simp) fun k hk => by
      have hmem : s.stringInput[k.val]? = some s.sb[k] := stringInput_getElem?_eq_some_iff.2 ⟨hk, rfl⟩
      rw [List.getElem?_map, hmem, Option.map_some]
      exact congrArg some (hupper k hk).symm
  have hfold : lowercase (s.setSb upper).stringInput = s.stringInput := by
    rw [hstring, lowercase, List.map_map]
    conv_rhs => rw [← List.map_id s.stringInput]
    exact List.map_congr_left ((forall_mem_loadBuf_iff fun c => (fold ∘ upperForm) c = c).2 fun k hk =>
      fold_upperForm (hlower k hk))
  refine exec_decode_setSb ?_
  rw [← decodeString_lowercase, hfold]
  simp [hstring, isLower_upperForm]

/-! ## The checksum and the stores (R100 to R103) -/

section Checksum

variable {s : State} {pos : Fin 256} {hrp : List Code} {words : List DataWord}

/-- The HRP a claim reads off the string is the folded characters before the delimiter. -/
theorem State.ReadsAs.hrp_eq (h : s.ReadsAs pos hrp words) : lowercase (s.stringInput.take pos.val) = hrp := by
  obtain ⟨-, -, hdata, ⟨hlen, hhrp⟩, -⟩ := h
  refine List.ext_getElem (by simp; omega) fun i hi _ => ?_
  have hlt : i < pos.val := by simpa [hlen] using ‹i < hrp.length›
  have hi' := hhrp ⟨i, by omega⟩ hlt
  rw [List.getElem?_eq_getElem (by omega), Option.some.injEq] at hi'
  simp [lowercase, stringInput_getElem, hi']

/-- The words a claim reads off the string are those stage 6 gives. -/
theorem State.ReadsAs.mapCharacters_eq (h : s.ReadsAs pos hrp words) :
    mapCharacters (s.stringInput.drop (pos.val + 1)) = some words := by
  obtain ⟨-, -, hdata, -, hlen, hwords⟩ := h
  have hslen := s.slen.isLt
  have hfold : lowercase (s.stringInput.drop (pos.val + 1)) = words.map encChar := by
    refine List.ext_getElem (by simp; omega) fun i _ hi => ?_
    rw [List.length_map] at hi
    have hi' := hwords ⟨pos.val + 1 + i, by omega⟩ (by simp; omega) (by simp; omega)
    simp only [show pos.val + 1 + i - pos.val - 1 = i by omega, List.getElem?_eq_getElem hi, Option.map_some,
      Option.some.injEq] at hi'
    simp [lowercase, stringInput_getElem, hi']
  rw [← mapCharacters_lowercase, hfold, mapCharacters_map_encChar]

/-- Stages 1 to 7 passed, the checksum decides. -/
theorem State.ReadsAs.decodeString_eq (h : s.ReadsAs pos hrp words) :
    decodeString s.stringInput = decodeVerify (s.stringInput.take pos.val) words := by
  obtain ⟨hsplit, hpos, hdata, -⟩ := id h
  exact (hsplit.splits hpos hdata).decodeString_eq h.mapCharacters_eq

theorem State.ReadsAs.exec_decode_of_ne (h : s.ReadsAs pos hrp words) (hp : polymod (expandHrp hrp ++ words) ≠ 1#32) :
    exec .decode s = .next { s with
      err := 8
      valid := false
      hlen := 0
      wlen := 0
      chk := polymod (expandHrp hrp ++ words) } := by
  rw [← h.hrp_eq] at hp ⊢
  exact exec_decode_of_mismatch (h.decodeString_eq.trans (decodeVerify_of_ne hp))

theorem State.ReadsAs.exec_decode_of_eq (h : s.ReadsAs pos hrp words) (hp : polymod (expandHrp hrp ++ words) = 1#32) :
    exec .decode s = .next (s.decodeSucceeds hrp (words.take (words.length - 6)) 1#32) := by
  rw [← h.hrp_eq] at hp ⊢
  exact exec_decode_of_decoded (h.decodeString_eq.trans (decodeVerify_of_eq hp))

end Checksum

/-- Settles O46: on either outcome of the comparison CHK is the polymod. -/
theorem decodeVerifiesTheChecksum : Obligations.DecodeVerifiesTheChecksum :=
  fun _ _ _ _ h => ⟨h.exec_decode_of_ne, fun hp => ⟨_, h.exec_decode_of_eq hp, hp.symm, rfl⟩⟩

/-- An element of a buffer after a store, as an entry of the stored sequence or the old element. -/
theorem some_storeBuf_getElem {w : Nat} (b : Buf w) (xs : List (BitVec w)) (i : Fin 256) :
    some (storeBuf b xs)[i] = if i.val < xs.length then xs[i.val]? else some b[i] := by
  rw [Fin.getElem_fin, storeBuf_getElem]
  split
  · next hi => rw [List.getElem?_eq_getElem hi]
  · rfl

/-- Settles O47: the success of R103 stores the HRP and all but the last six words. -/
theorem decodeStoresHrpAndPayload : Obligations.DecodeStoresHrpAndPayload := by
  refine ⟨runsWord_encodeCommand .decode, fun _ => rejectsWord_nonzeroArg (by decide), fun s pos hrp words h hp => ?_⟩
  obtain ⟨⟨hshort, -⟩, hpos, hdata, ⟨hhrp, -⟩, hwords, -⟩ := id h
  have hpayload : (words.take (words.length - 6)).length = words.length - 6 := by simp
  refine ⟨_, h.exec_decode_of_eq hp, ?_, ?_, ?_, ?_, rfl, rfl, rfl, rfl⟩
  · intro i
    rw [State.decodeSucceeds_eq, some_storeBuf_getElem, hhrp]
  · rw [State.decodeSucceeds_eq, lengthReg_toNat (by omega), hhrp]
  · intro i
    rw [State.decodeSucceeds_eq, some_storeBuf_getElem, hpayload]
    split
    · next hi => rw [List.getElem?_take_of_lt hi]
    · rfl
  · rw [State.decodeSucceeds_eq, lengthReg_toNat (by omega), hpayload]

/-! ## What holds of an accepted string (R104) -/

/-- DECODE of `s` passes every stage and leaves `t`: the delimiter is at `pos`, the characters after it have the values
`words`, and HB and WB of `t` hold the lower-cased HRP and the words before the last six. -/
structure Accepts (s t : State) (pos : Nat) (words : List DataWord) : Prop extends Splits s.stringInput pos where
  maps : mapCharacters (s.stringInput.drop (pos + 1)) = some words
  verifies : polymod (expandHrp t.hrpInput ++ words) = 1#32
  hlen : t.hlen.toNat = pos
  wlen : t.wlen.toNat = words.length - 6
  hrpInput : t.hrpInput = lowercase (s.stringInput.take pos)
  wordInput : t.wordInput = words.take (words.length - 6)

section Accepted

variable {s t : State} {pos : Nat} {words : List DataWord}

/-- The sequences a successful DECODE leaves in HB and WB are the two lists it stores. -/
theorem decodeSucceeds_hrpInput {hrp : List Code} (payload : List DataWord) (p : Accum) (h : hrp.length ≤ 255) :
    (s.decodeSucceeds hrp payload p).hrpInput = hrp := by
  rw [State.decodeSucceeds_eq, State.hrpInput, lengthReg_toNat h]
  exact loadBuf_storeBuf _ _ (by omega)

theorem decodeSucceeds_wordInput (hrp : List Code) {payload : List DataWord} (p : Accum) (h : payload.length ≤ 255) :
    (s.decodeSucceeds hrp payload p).wordInput = payload := by
  rw [State.decodeSucceeds_eq, State.wordInput, lengthReg_toNat h]
  exact loadBuf_storeBuf _ _ (by omega)

/-- There is one word for each character after the delimiter. -/
theorem length_of_mapCharacters_eq (h : mapCharacters (s.stringInput.drop (pos + 1)) = some words) :
    words.length = s.slen.toNat - pos - 1 := by
  obtain ⟨-, rfl⟩ := mapCharacters_eq_some_iff.1 h
  simp
  omega

/-- `dec_char` of the character with index `j` after the delimiter is word `j`. -/
theorem map_decChar_of_mapCharacters_eq (h : mapCharacters (s.stringInput.drop (pos + 1)) = some words) {j : Nat}
    (hj : j < words.length) : (s.sb[pos + 1 + j]?).map decChar = some (words[j].setWidth 8) := by
  have hslen := s.slen.isLt
  have hlen := length_of_mapCharacters_eq h
  obtain ⟨hvalue, rfl⟩ := mapCharacters_eq_some_iff.1 h
  have hne := (forall_mem_drop_stringInput_iff fun c => decChar c ≠ sentinel).1 hvalue ⟨pos + 1 + j, by omega⟩
    (by simp; omega) (by simp; omega)
  obtain ⟨v, hv⟩ := exists_dataWord_of_decChar_ne hne
  simp only [Fin.getElem_fin] at hv
  rw [Vector.getElem?_eq_getElem (by omega)]
  simp [stringInput_getElem, hv, (dataWord_in_dec v).2]

/-- A DECODE that leaves 0 in ERR has passed every stage. -/
theorem accepts_of_err_eq_zero (h : exec .decode s = .next t) (herr : t.err = 0) : ∃ pos words, Accepts s t pos words := by
  cases hd : decodeString s.stringInput with
  | failed k =>
    obtain rfl := Host.Outcome.next.inj ((exec_decode_of_rejects (decodeString_eq_failed_iff.1 hd)).symm.trans h)
    exact absurd herr (errorCode_ne_zero k)
  | mismatch p =>
    obtain rfl := Host.Outcome.next.inj ((exec_decode_of_mismatch hd).symm.trans h)
    cases herr
  | decoded hrp payload p =>
    obtain rfl := Host.Outcome.next.inj ((exec_decode_of_decoded hd).symm.trans h)
    obtain ⟨hshort, hprint, hcase, pos, words, hlast, hpos, hdata, hwords, rfl, rfl, rfl, hp⟩ := decodeString_eq_decoded hd
    have hlen := length_of_mapCharacters_eq hwords
    rw [stringInput_length] at hshort hdata
    have hhrp : (lowercase (s.stringInput.take pos)).length = pos := by simp; omega
    have hpayload : (words.take (words.length - 6)).length = words.length - 6 := by simp
    have hhrpInput := decodeSucceeds_hrpInput (s := s) (words.take (words.length - 6)) 1#32
      (hhrp.trans_le (by omega))
    refine ⟨pos, words, ⟨⟨⟨by simpa using hshort, hprint, hcase⟩, hlast, hpos, by simpa using hdata⟩, hwords,
      by rw [hhrpInput, hp], ?_, ?_, hhrpInput, decodeSucceeds_wordInput _ _ (hpayload.trans_le (by omega))⟩⟩
    · rw [State.decodeSucceeds_eq, lengthReg_toNat (by omega), hhrp]
    · rw [State.decodeSucceeds_eq, lengthReg_toNat (by omega), hpayload]

theorem Accepts.hrpPrintable (h : Accepts s t pos words) : t.HrpPrintable := by
  rw [State.hrpPrintable_iff, h.hrpInput]
  intro c hc
  obtain ⟨d, hd, rfl⟩ := List.mem_map.1 hc
  exact (isPrintable_fold d).trans (h.printable d (List.mem_of_mem_take hd))

theorem Accepts.hrp_not_upper (h : Accepts s t pos words) :
    ∀ k : Fin 256, k.val < t.hlen.toNat → ¬ (65 ≤ t.hb[k].toNat ∧ t.hb[k].toNat ≤ 90) := by
  refine (forall_mem_loadBuf_iff fun c => ¬ (65 ≤ c.toNat ∧ c.toNat ≤ 90)).1 fun c (hc : c ∈ t.hrpInput) => ?_
  rw [h.hrpInput] at hc
  simp [← isUpper_iff, isUpper_of_mem_lowercase hc]

theorem Accepts.hb_getElem (h : Accepts s t pos words) (k : Fin 256) (hk : k.val < t.hlen.toNat) :
    t.hb[k] = fold s.sb[k] := by
  have hread : t.hrpInput[k.val]'(by simpa using hk) = t.hb[k] := hrpInput_getElem t k _
  simp [← hread, h.hrpInput, lowercase, stringInput_getElem]

theorem Accepts.map_decChar_payload (h : Accepts s t pos words) (k : Fin 256) (hk : k.val < t.wlen.toNat) :
    (s.sb[t.hlen.toNat + 1 + k.val]?).map decChar = some (t.wb[k].setWidth 8) := by
  have hwlen := h.wlen
  have hread : t.wordInput[k.val]'(by simpa using hk) = t.wb[k] := wordInput_getElem t k _
  rw [h.hlen, map_decChar_of_mapCharacters_eq h.maps (by omega), ← hread]
  simp [h.wordInput]

/-- The last six words are the string's own checksum. -/
theorem Accepts.exists_checksum (h : Accepts s t pos words) : ∃ ck : Vector DataWord 6,
    (∀ i : Fin 6, (s.sb[s.slen.toNat - 6 + i.val]?).map decChar = some (ck[i].setWidth 8)) ∧
    polymod (expandHrp t.hrpInput ++ t.wordInput ++ ck.toList) = 1#32 := by
  have hlen := length_of_mapCharacters_eq h.maps
  have hdata : pos + 7 ≤ s.slen.toNat := stringInput_length s ▸ h.dataSize
  refine ⟨⟨(words.drop (words.length - 6)).toArray, by simp; omega⟩, fun i => ?_, ?_⟩
  · have hindex : s.slen.toNat - 6 + i.val = pos + 1 + (words.length - 6 + i.val) := by omega
    rw [hindex, map_decChar_of_mapCharacters_eq h.maps (by omega)]
    simp
  · rw [List.append_assoc, h.wordInput, Vector.toList_mk, List.take_append_drop, h.verifies]

end Accepted

/-- Settles O49: the sizes follow from the position of the delimiter, and HB and WB from the lists stored in them. -/
theorem acceptedStringsMeetTheInvariants : Obligations.AcceptedStringsMeetTheInvariants := by
  intro s t h herr
  obtain ⟨pos, words, haccepts⟩ := accepts_of_err_eq_zero h herr
  obtain ⟨hshort, -, hcase⟩ := scans_stringInput_iff.1 haccepts.toScans
  have hpos := haccepts.hrpSize
  have hdata : pos + 7 ≤ s.slen.toNat := stringInput_length s ▸ haccepts.dataSize
  have hlen := length_of_mapCharacters_eq haccepts.maps
  have hhlen := haccepts.hlen
  have hwlen := haccepts.wlen
  exact ⟨hcase, hshort, by omega, by omega, by omega, by omega, haccepts.hrpPrintable, haccepts.hrp_not_upper,
    ⟨⟨pos, by omega⟩, hhlen.symm, State.delimiterAt_iff.2 haccepts.last⟩, haccepts.hb_getElem,
    haccepts.map_decChar_payload, haccepts.exists_checksum⟩

end Sys2Proof.Machine

/-! # Proofs: errors (60_exceptions.md)

O4, O19, O20 and O21. When a command word is illegal comes first, read off the decoder; then ERR, command by command; what a
failing command writes is read off the outcomes proved with its family. -/

namespace Sys2Proof

/-! ## Illegal command words (R53, R112) -/

/-- R53's three cases, said of the two fields of a command word. -/
abbrev IllegalFields (op arg : Nat) : Prop :=
  op = 0 ∨ 0x0B ≤ op ∨ (op ∈ [1, 3, 6, 7, 8, 9, 10] ∧ arg ≠ 0) ∨ (op ∈ [2, 4] ∧ 32 ≤ arg)

/-- The fields of a command's word are in none of the three cases. -/
theorem not_illegalFields_command (i : Instr) : ¬ IllegalFields (opcode i).toNat (argOf i).toNat := by
  cases i with
  | pmstep v | encch v => revert v; decide
  | decch c => simp [opcode]
  | pminit | pmrun | hrpx | ckcreate | ckverify | encode | decode => decide

theorem arg_ne_zero_of_noOperand_eq_error {arg : BitVec 8} {i : Instr} {e : Illegal} (h : noOperand arg i = .error e) :
    arg.toNat ≠ 0 := by
  intro hzero
  obtain rfl : arg = 0 := BitVec.eq_of_toNat_eq hzero
  cases h

theorem le_arg_of_wordOperand_eq_error {arg : BitVec 8} {f : DataWord → Instr} {e : Illegal}
    (h : wordOperand arg f = .error e) : 32 ≤ arg.toNat := by
  have small : ∀ a : BitVec 8, a.toNat < 32 → a.extractLsb' 5 3 = 0 := by decide
  by_contra hlt
  rw [wordOperand, if_pos (small arg (Nat.lt_of_not_le hlt))] at h
  cases h

/-- Every row of R51 that the decoder refuses, and every word without a row, is in one of the three cases. -/
theorem illegalFields_of_decodeCommand_eq_error {w : CommandWord} {e : Illegal} (h : decodeCommand w = .error e) :
    IllegalFields (opField w).toNat (argField w).toNat := by
  unfold decodeCommand at h
  split at h
  case h_1 hop | h_3 hop | h_6 hop | h_7 hop | h_8 hop | h_9 hop | h_10 hop =>
    exact .inr (.inr (.inl ⟨by simp [hop], arg_ne_zero_of_noOperand_eq_error h⟩))
  case h_2 hop | h_4 hop =>
    exact .inr (.inr (.inr ⟨by simp [hop], le_arg_of_wordOperand_eq_error h⟩))
  case h_5 => cases h
  case h_11 =>
    have hrow : (opField w).toNat = 0 ∨ 0x0B ≤ (opField w).toNat := by grind
    exact hrow.elim .inl (.inr ∘ .inl)

namespace Machine

theorem rejectsWord_of_decodeCommand_eq_error {w : CommandWord} {e : Illegal} (h : decodeCommand w = .error e) :
    RejectsWord w :=
  runCommand_error h

theorem rejectsWord_of_illegalFields {w : CommandWord} (h : IllegalFields (opField w).toNat (argField w).toNat) :
    RejectsWord w := by
  refine rejectsWord_of_forall_ne fun i hi => not_illegalFields_command i ?_
  rwa [← hi, opField_encodeCommand, argField_encodeCommand] at h

/-- Settles O4: no command's word is in R53's three cases, and the decoder refuses no other word. -/
theorem illegalWordsOnlySetErr : Obligations.IllegalWordsOnlySetErr := by
  intro w
  rw [← opField_toNat, ← argField_toNat]
  refine ⟨rejectsWord_of_illegalFields, fun hlegal => ?_⟩
  cases h : decodeCommand w with
  | ok i => exact ⟨i, rfl, runCommand_ok h⟩
  | error e => exact absurd (illegalFields_of_decodeCommand_eq_error h) hlegal

/-! ## ERR after a command (R108, R110) -/

/-- No command reads the ERR it finds, and each overwrites it. -/
theorem exec_setErr (i : Instr) (s : State) (e : BitVec 4) : exec i (s.setErr e) = exec i s := by
  cases i <;> rfl

theorem runCommand_setErr (w : CommandWord) (s : State) (e : BitVec 4) :
    runCommand w (s.setErr e) = runCommand w s := by
  cases h : decodeCommand w with
  | ok i => rw [runCommand_ok h, runCommand_ok h, exec_setErr]
  | error _ => rw [runCommand_error h, runCommand_error h]; rfl

/-- Settles O19: an illegal word overwrites ERR as a command does, and every reset leaves 0 in it. -/
theorem errIsNotSticky : Obligations.ErrIsNotSticky :=
  ⟨runCommand_setErr, fun _ => ⟨_, rfl, rfl⟩⟩

/-- The kinds of ENCODE's checks, by code. -/
theorem errorCode_of_encodeCheck_eq_some {hrp : List Code} {payload : List DataWord} {k : ErrorKind}
    (h : encodeCheck hrp payload = some k) : errorCode k = 5 ∨ errorCode k = 7 ∨ errorCode k = 9 := by
  obtain ⟨rfl, -⟩ | ⟨rfl, -⟩ | ⟨rfl, -⟩ := encodeCheck_eq_some h
  · exact .inl rfl
  · exact .inr (.inl rfl)
  · exact .inr (.inr rfl)

/-- Settles O20: seven commands have one outcome, with ERR 0; the other three are read off their outcomes. -/
theorem errCodesOfEachCommand : Obligations.ErrCodesOfEachCommand := by
  intro i s
  cases i with
  | pminit | pmstep v | pmrun | encch v | decch c | ckcreate | ckverify => exact ⟨_, rfl, rfl⟩
  | hrpx =>
    obtain ⟨-, heq⟩ | ⟨-, heq⟩ := execHrpx_cases s
    · exact ⟨_, heq, .inr rfl⟩
    · exact ⟨_, heq, .inl rfl⟩
  | encode =>
    obtain ⟨k, hk, heq⟩ | ⟨-, heq⟩ := execEncode_cases s
    · exact ⟨_, heq, .inr (errorCode_of_encodeCheck_eq_some hk)⟩
    · exact ⟨_, heq, .inl rfl⟩
  | decode =>
    obtain ⟨k, hk, heq⟩ | ⟨p, -, heq⟩ | ⟨hrp, payload, p, -, heq⟩ := execDecode_cases s
    · exact ⟨_, heq, (decodeString_failed_code hk).trans (by decide)⟩
    · exact ⟨_, heq, le_refl 8⟩
    · exact ⟨_, heq, Nat.zero_le 8⟩

/-! ## What a failing command writes (R111) -/

section Failures

variable {s t : State}

theorem exec_hrpx_of_err_ne_zero (h : exec .hrpx s = .next t) (herr : t.err ≠ 0) :
    t = { s with err := 9, wlen := 0 } := by
  obtain hsmall | hlarge := Nat.lt_or_ge s.hlen.toNat 128
  · obtain rfl := Host.Outcome.next.inj ((exec_hrpx_of_le (Nat.le_of_lt_succ hsmall)).symm.trans h)
    exact absurd rfl herr
  · exact Host.Outcome.next.inj (h.symm.trans (exec_hrpx_of_ge hlarge))

theorem exec_encode_of_err_ne_zero (h : exec .encode s = .next t) (herr : t.err ≠ 0) :
    (t.err = 5 ∨ t.err = 7 ∨ t.err = 9) ∧ t = { s with err := t.err, slen := 0 } := by
  cases hcheck : encodeCheck s.hrpInput s.wordInput with
  | some k =>
    obtain rfl := Host.Outcome.next.inj ((exec_encode_fails hcheck).symm.trans h)
    exact ⟨errorCode_of_encodeCheck_eq_some hcheck, rfl⟩
  | none =>
    obtain rfl := Host.Outcome.next.inj ((exec_encode_succeeds hcheck).symm.trans h)
    exact absurd rfl herr

/-- A failing DECODE fails at a stage before the checksum, or computes a polymod other than 1 and leaves it in CHK. -/
theorem exec_decode_of_err_ne_zero (h : exec .decode s = .next t) (herr : t.err ≠ 0) :
    (t.err.toNat ≤ 7 ∧ t = { s with err := t.err, valid := false, hlen := 0, wlen := 0 }) ∨
    (decodeString s.stringInput = .mismatch t.chk ∧ t.chk ≠ 1 ∧
      t = { s with err := 8, valid := false, hlen := 0, wlen := 0, chk := t.chk }) := by
  cases hstages : decodeString s.stringInput with
  | failed k =>
    have heq := exec_decode_of_rejects (decodeString_eq_failed_iff.1 hstages)
    obtain rfl := Host.Outcome.next.inj (heq.symm.trans h)
    exact .inl ⟨decodeString_failed_code hstages, rfl⟩
  | mismatch p =>
    obtain ⟨-, -, -, pos, words, -, -, -, -, -, hp⟩ := decodeString_eq_mismatch hstages
    obtain rfl := Host.Outcome.next.inj ((exec_decode_of_mismatch hstages).symm.trans h)
    exact .inr ⟨rfl, hp, rfl⟩
  | decoded hrp payload p =>
    obtain rfl := Host.Outcome.next.inj ((exec_decode_of_decoded hstages).symm.trans h)
    exact absurd rfl herr

/-- The seven other commands never fail. -/
theorem err_eq_zero_of_exec {i : Instr} (hhrpx : i ≠ .hrpx) (hencode : i ≠ .encode) (hdecode : i ≠ .decode)
    (h : exec i s = .next t) : t.err = 0 := by
  obtain ⟨u, hu, herr⟩ := errCodesOfEachCommand i s
  obtain rfl := Host.Outcome.next.inj (hu.symm.trans h)
  cases i with
  | pminit | pmstep v | pmrun | encch v | decch c | ckcreate | ckverify => exact herr
  | hrpx | encode | decode => contradiction

end Failures

/-- Settles O21: row by row of R111, the outcome with an ERR other than 0 is one update of the old state. -/
theorem failingCommandsWriteOnlyTheList : Obligations.FailingCommandsWriteOnlyTheList :=
  fun _ _ => ⟨fun _ _ => rejectsWord_of_decodeCommand_eq_error, exec_hrpx_of_err_ne_zero, exec_encode_of_err_ne_zero,
    exec_decode_of_err_ne_zero, fun _ => err_eq_zero_of_exec⟩

end Machine

end Sys2Proof

/-! # Proofs: reset and the idle machine (70_reset_and_hazards.md)

O12 and O14. -/

namespace Sys2Proof.Machine

/-- `Reset()` is the next reset of the run, with the host's script and answers kept (R121, log entries 1 and 4). -/
theorem perform_reset (s : State) :
    perform .reset s =
      .next { State.atReset (s.resets + 1) with script := s.script, answers := s.answers } := rfl

/-- Settles O12: the registers and the host's fields are read off `perform_reset`; the buffers are those of that reset. -/
theorem resetPrimitiveFromAnyState : Obligations.ResetPrimitiveFromAnyState :=
  fun s => ⟨_, perform_reset s, rfl, rfl, rfl, rfl, rfl, rfl, rfl, rfl, atReset_elements (s.resets + 1), rfl, rfl, rfl⟩

/-- Settles O14: a step with an empty script has its own arm. -/
theorem idleStepChangesNothing : Obligations.IdleStepChangesNothing :=
  fun _ => step_nil

end Sys2Proof.Machine
